-- ==== Sys2Proof/Word.lean ====
section
/-!
DEFINITION. The word types of the XuanTie E901 (00_scope.md R8: XLEN = 32, little-endian, byte-addressed).
-/

namespace Sys2Proof

/-- A 32-bit register value, address or program counter (00_scope.md R8, R13). -/
abbrev Word := BitVec 32

/-- A byte, the smallest addressable unit (20_memory.md R100). -/
abbrev Byte := BitVec 8

end Sys2Proof
end

