-- ==== Sys2Proof/Syntax.lean ====
section
/-!
DEFINITION. The instructions of spec/opcode_table.json, one constructor per row.
Immediates are the fields of the encoding, unscaled; the meanings scale and extend them.
-/

namespace Sys2Proof

/-- A general register number, x0 to x15 (10_state.md R20, R23). -/
abbrev Reg := Fin 16

/-- A three-bit register field of a compressed format; it names x8 to x15 (30_encoding.md R172). -/
abbrev CReg := Fin 8

/-- The register lists of the Zcmp stack instructions on RV32E (44_zcb_zcmp_zcmt.md R362). -/
inductive RegList
  /-- rlist = 4: x1. -/
  | ra
  /-- rlist = 5: x1 and x8. -/
  | raS0
  /-- rlist = 6: x1, x8 and x9. -/
  | raS0S1
  deriving DecidableEq, Repr, Inhabited

/-- The saved registers CM.MVSA01 and CM.MVA01S can name (44_zcb_zcmp_zcmt.md R367, R368). -/
inductive SReg
  /-- Field 000: x8. -/
  | s0
  /-- Field 001: x9. -/
  | s1
  deriving DecidableEq, Repr, Inhabited

/-- The instruction set: a constructor for each row of spec/opcode_table.json, in the families of spec/40 to spec/45. -/
inductive Instr
  -- RV32E integer registers (40_rv32e_base.md R201 to R237)
  | add (rd rs1 rs2 : Reg)
  | addi (rd rs1 : Reg) (imm : BitVec 12)
  | and (rd rs1 rs2 : Reg)
  | andi (rd rs1 : Reg) (imm : BitVec 12)
  | auipc (rd : Reg) (imm : BitVec 20)
  | beq (rs1 rs2 : Reg) (imm : BitVec 12)
  | bge (rs1 rs2 : Reg) (imm : BitVec 12)
  | bgeu (rs1 rs2 : Reg) (imm : BitVec 12)
  | blt (rs1 rs2 : Reg) (imm : BitVec 12)
  | bltu (rs1 rs2 : Reg) (imm : BitVec 12)
  | bne (rs1 rs2 : Reg) (imm : BitVec 12)
  | csrrc (rd rs1 : Reg) (csr : BitVec 12)
  | csrrci (rd : Reg) (imm : BitVec 5) (csr : BitVec 12)
  | csrrs (rd rs1 : Reg) (csr : BitVec 12)
  | csrrsi (rd : Reg) (imm : BitVec 5) (csr : BitVec 12)
  | csrrw (rd rs1 : Reg) (csr : BitVec 12)
  | csrrwi (rd : Reg) (imm : BitVec 5) (csr : BitVec 12)
  | ebreak
  | ecall
  | fence (pred succ : BitVec 4)
  | fenceI
  | jal (rd : Reg) (imm : BitVec 20)
  | jalr (rd rs1 : Reg) (imm : BitVec 12)
  | lb (rd rs1 : Reg) (imm : BitVec 12)
  | lbu (rd rs1 : Reg) (imm : BitVec 12)
  | lh (rd rs1 : Reg) (imm : BitVec 12)
  | lhu (rd rs1 : Reg) (imm : BitVec 12)
  | lui (rd : Reg) (imm : BitVec 20)
  | lw (rd rs1 : Reg) (imm : BitVec 12)
  | mret
  | or (rd rs1 rs2 : Reg)
  | ori (rd rs1 : Reg) (imm : BitVec 12)
  | sb (rs2 rs1 : Reg) (imm : BitVec 12)
  | sh (rs2 rs1 : Reg) (imm : BitVec 12)
  | sll (rd rs1 rs2 : Reg)
  | slli (rd rs1 : Reg) (shamt : BitVec 5)
  | slt (rd rs1 rs2 : Reg)
  | slti (rd rs1 : Reg) (imm : BitVec 12)
  | sltiu (rd rs1 : Reg) (imm : BitVec 12)
  | sltu (rd rs1 rs2 : Reg)
  | sra (rd rs1 rs2 : Reg)
  | srai (rd rs1 : Reg) (shamt : BitVec 5)
  | srl (rd rs1 rs2 : Reg)
  | srli (rd rs1 : Reg) (shamt : BitVec 5)
  | sub (rd rs1 rs2 : Reg)
  | sw (rs2 rs1 : Reg) (imm : BitVec 12)
  | wfi
  | xor (rd rs1 rs2 : Reg)
  | xori (rd rs1 : Reg) (imm : BitVec 12)
  -- Zmmul (41_zmmul.md R261 to R264)
  | mul (rd rs1 rs2 : Reg)
  | mulh (rd rs1 rs2 : Reg)
  | mulhsu (rd rs1 rs2 : Reg)
  | mulhu (rd rs1 rs2 : Reg)
  -- Zba, Zbb, Zbs (42_b_extension.md R271 to R299)
  | sh1add (rd rs1 rs2 : Reg)
  | sh2add (rd rs1 rs2 : Reg)
  | sh3add (rd rs1 rs2 : Reg)
  | andn (rd rs1 rs2 : Reg)
  | orn (rd rs1 rs2 : Reg)
  | xnor (rd rs1 rs2 : Reg)
  | clz (rd rs1 : Reg)
  | ctz (rd rs1 : Reg)
  | cpop (rd rs1 : Reg)
  | max (rd rs1 rs2 : Reg)
  | maxu (rd rs1 rs2 : Reg)
  | min (rd rs1 rs2 : Reg)
  | minu (rd rs1 rs2 : Reg)
  | sextB (rd rs1 : Reg)
  | sextH (rd rs1 : Reg)
  | zextH (rd rs1 : Reg)
  | rol (rd rs1 rs2 : Reg)
  | ror (rd rs1 rs2 : Reg)
  | rori (rd rs1 : Reg) (shamt : BitVec 5)
  | orcB (rd rs1 : Reg)
  | rev8 (rd rs1 : Reg)
  | bclr (rd rs1 rs2 : Reg)
  | bclri (rd rs1 : Reg) (shamt : BitVec 5)
  | bext (rd rs1 rs2 : Reg)
  | bexti (rd rs1 : Reg) (shamt : BitVec 5)
  | binv (rd rs1 rs2 : Reg)
  | binvi (rd rs1 : Reg) (shamt : BitVec 5)
  | bset (rd rs1 rs2 : Reg)
  | bseti (rd rs1 : Reg) (shamt : BitVec 5)
  -- Zca (43_zca.md R311 to R337)
  | cAdd (rd rs2 : Reg)
  | cAddi (rd : Reg) (imm : BitVec 6)
  | cAddi4spn (rd : CReg) (imm : BitVec 8)
  | cAddi16sp (imm : BitVec 6)
  | cAnd (rd rs2 : CReg)
  | cAndi (rd : CReg) (imm : BitVec 6)
  | cBeqz (rs1 : CReg) (imm : BitVec 8)
  | cBnez (rs1 : CReg) (imm : BitVec 8)
  | cEbreak
  | cJ (imm : BitVec 11)
  | cJal (imm : BitVec 11)
  | cJalr (rs1 : Reg)
  | cJr (rs1 : Reg)
  | cLi (rd : Reg) (imm : BitVec 6)
  | cLui (rd : Reg) (imm : BitVec 6)
  | cLw (rd rs1 : CReg) (imm : BitVec 5)
  | cLwsp (rd : Reg) (imm : BitVec 6)
  | cMv (rd rs2 : Reg)
  | cNop
  | cOr (rd rs2 : CReg)
  | cSlli (rd : Reg) (shamt : BitVec 5)
  | cSrai (rd : CReg) (shamt : BitVec 5)
  | cSrli (rd : CReg) (shamt : BitVec 5)
  | cSw (rs2 rs1 : CReg) (imm : BitVec 5)
  | cSwsp (rs2 : Reg) (imm : BitVec 6)
  | cSub (rd rs2 : CReg)
  | cXor (rd rs2 : CReg)
  -- Zcb (44_zcb_zcmp_zcmt.md R351 to R361)
  | cLbu (rd rs1 : CReg) (imm : BitVec 2)
  | cLhu (rd rs1 : CReg) (imm : BitVec 1)
  | cLh (rd rs1 : CReg) (imm : BitVec 1)
  | cSb (rs2 rs1 : CReg) (imm : BitVec 2)
  | cSh (rs2 rs1 : CReg) (imm : BitVec 1)
  | cZextB (rd : CReg)
  | cSextB (rd : CReg)
  | cZextH (rd : CReg)
  | cSextH (rd : CReg)
  | cNot (rd : CReg)
  | cMul (rd rs2 : CReg)
  -- Zcmp (44_zcb_zcmp_zcmt.md R363 to R368)
  | cmPush (list : RegList) (spimm : BitVec 2)
  | cmPop (list : RegList) (spimm : BitVec 2)
  | cmPopretz (list : RegList) (spimm : BitVec 2)
  | cmPopret (list : RegList) (spimm : BitVec 2)
  | cmMvsa01 (r1 r2 : SReg)
  | cmMva01s (r1 r2 : SReg)
  -- Zcmt (44_zcb_zcmp_zcmt.md R371, R372)
  | cmJt (index : BitVec 5)
  | cmJalt (index : BitVec 8)
  -- coprocessor instructions (45_coprocessor.md R386 to R393)
  | cpx0 (index : BitVec 2) (rs1 : Reg) (uimm : BitVec 10)
  | cpx1 (index : BitVec 2) (rs1 : Reg)
  | cpx2 (index : BitVec 2) (rd rs1 : Reg) (uimm : BitVec 5)
  | cpx3 (index : BitVec 2) (rd rs1 : Reg)
  | cpx4 (index : BitVec 2) (rs1 rs2 : Reg) (uimm : BitVec 5)
  | cpx5 (index : BitVec 2) (rs1 rs2 : Reg)
  | cpx6 (index : BitVec 2) (rd rs1 rs2 : Reg)
  | cpx9 (index : BitVec 2) (rd rs1 : Reg) (uimm : BitVec 10)
  deriving DecidableEq, Repr

end Sys2Proof
end

