-- ==== Sys2Proof/WellFormed.lean ====
section
/-!
DEFINITION. The constraints the opcode table puts on operands beyond the widths of their fields
(the "constraints" column of spec/opcode_table.json).
-/

namespace Sys2Proof

/-- The operands satisfy the constraints of the instruction's row; every other constructor has none
(43_zca.md R311 to R331, 44_zcb_zcmp_zcmt.md R367, R372). -/
def Instr.wf : Instr → Bool
  | .cAdd rd rs2 => rd != 0 && rs2 != 0
  | .cAddi rd imm => rd != 0 && imm != 0
  | .cAddi4spn _ imm => imm != 0
  | .cAddi16sp imm => imm != 0
  | .cJalr rs1 => rs1 != 0
  | .cJr rs1 => rs1 != 0
  | .cLi rd _ => rd != 0
  | .cLui rd imm => rd != 0 && rd != 2 && imm != 0
  | .cLwsp rd _ => rd != 0
  | .cMv rd rs2 => rd != 0 && rs2 != 0
  | .cSlli rd shamt => rd != 0 && shamt != 0
  | .cSrai _ shamt => shamt != 0
  | .cSrli _ shamt => shamt != 0
  | .cmMvsa01 r1 r2 => r1 != r2
  | .cmJalt index => 32 ≤ index.toNat
  | _ => true

end Sys2Proof
end

