-- ==== Sys2Proof/Decode.lean ====
section
/-!
DEFINITION. The decoder (30_encoding.md), total on any bytes and rejecting by name, and the encoder.
Fields are taken out of a Nat, so that the kernel evaluates both on numerals.
-/

namespace Sys2Proof

/-- Why bytes are no instruction of the opcode table. -/
inductive Reject
  /-- No row matches, or a five-bit register field is above 15: exception 2 (R160, R161, R164). -/
  | illegal
  /-- The word breaks a constraint and the spec does not say what it does (R163). -/
  | unsettled
  /-- The word, of custom-1, custom-2 or custom-3, that is no cpx row (R165, R394, R395). -/
  | custom (w : Word)
  /-- A cpx word with a non-zero reserved field (R163 l, R383 (3)). -/
  | cpxReserved
  /-- Fewer bytes than the instruction's length: no fetch gives this. -/
  | truncated
  deriving DecidableEq, Repr, Inhabited

/-- The field of `n` bits of `w` whose lowest bit is bit `lo` (R11). -/
def field (w lo n : Nat) : Nat := w / 2 ^ lo % 2 ^ n

/-- A five-bit register field: a number above 15 is illegal (R161). -/
def withReg (n : Nat) (k : Reg → Except Reject Instr) : Except Reject Instr :=
  if h : n < 16 then k ⟨n, h⟩ else .error .illegal

/-- The three-bit register field of `w` whose lowest bit is bit `lo` (R155, R172). -/
def cregAt (w lo : Nat) : CReg := ⟨w / 2 ^ lo % 8, Nat.mod_lt _ (by decide)⟩

/-! ## 32-bit formats (R142 to R153) -/

/-- R format (R143). -/
def decR (w : Nat) (k : Reg → Reg → Reg → Instr) : Except Reject Instr :=
  withReg (field w 7 5) fun rd => withReg (field w 15 5) fun rs1 => withReg (field w 20 5) fun rs2 =>
    .ok (k rd rs1 rs2)

/-- The two-register form whose bits [31:20] are fixed (42_b_extension.md R277, R284, R290). -/
def decR2 (w : Nat) (k : Reg → Reg → Instr) : Except Reject Instr :=
  withReg (field w 7 5) fun rd => withReg (field w 15 5) fun rs1 => .ok (k rd rs1)

/-- I format (R144). -/
def decI (w : Nat) (k : Reg → Reg → BitVec 12 → Instr) : Except Reject Instr :=
  withReg (field w 7 5) fun rd => withReg (field w 15 5) fun rs1 => .ok (k rd rs1 (BitVec.ofNat 12 (field w 20 12)))

/-- Shift-immediate form (R145). -/
def decShift (w : Nat) (k : Reg → Reg → BitVec 5 → Instr) : Except Reject Instr :=
  withReg (field w 7 5) fun rd => withReg (field w 15 5) fun rs1 => .ok (k rd rs1 (BitVec.ofNat 5 (field w 20 5)))

/-- S format (R146); the constructor takes rs2 first, as the syntax does. -/
def decS (w : Nat) (k : Reg → Reg → BitVec 12 → Instr) : Except Reject Instr :=
  withReg (field w 20 5) fun rs2 => withReg (field w 15 5) fun rs1 =>
    .ok (k rs2 rs1 (BitVec.ofNat 12 (field w 25 7 * 2 ^ 5 + field w 7 5)))

/-- B format (R147): the 12-bit field is inst[31], inst[7], inst[30:25], inst[11:8]. -/
def decB (w : Nat) (k : Reg → Reg → BitVec 12 → Instr) : Except Reject Instr :=
  withReg (field w 15 5) fun rs1 => withReg (field w 20 5) fun rs2 =>
    .ok (k rs1 rs2 (BitVec.ofNat 12
      (field w 31 1 * 2 ^ 11 + field w 7 1 * 2 ^ 10 + field w 25 6 * 2 ^ 4 + field w 8 4)))

/-- U format (R148). -/
def decU (w : Nat) (k : Reg → BitVec 20 → Instr) : Except Reject Instr :=
  withReg (field w 7 5) fun rd => .ok (k rd (BitVec.ofNat 20 (field w 12 20)))

/-- J format (R149): the 20-bit field is inst[31], inst[19:12], inst[20], inst[30:21]. -/
def decJ (w : Nat) (k : Reg → BitVec 20 → Instr) : Except Reject Instr :=
  withReg (field w 7 5) fun rd => .ok (k rd (BitVec.ofNat 20
    (field w 31 1 * 2 ^ 19 + field w 12 8 * 2 ^ 11 + field w 20 1 * 2 ^ 10 + field w 21 10)))

/-- CSR format with a register source (R150). -/
def decCsr (w : Nat) (k : Reg → Reg → BitVec 12 → Instr) : Except Reject Instr := decI w k

/-- CSR format with an immediate source (R150). -/
def decCsrImm (w : Nat) (k : Reg → BitVec 5 → BitVec 12 → Instr) : Except Reject Instr :=
  withReg (field w 7 5) fun rd => .ok (k rd (BitVec.ofNat 5 (field w 15 5)) (BitVec.ofNat 12 (field w 20 12)))

/-- Opcode 0110011 (R143, R164). -/
def decOp (w : Nat) : Except Reject Instr :=
  match field w 25 7, field w 12 3 with
  | 0, 0 => decR w .add
  | 32, 0 => decR w .sub
  | 0, 1 => decR w .sll
  | 0, 2 => decR w .slt
  | 0, 3 => decR w .sltu
  | 0, 4 => decR w .xor
  | 0, 5 => decR w .srl
  | 32, 5 => decR w .sra
  | 0, 6 => decR w .or
  | 0, 7 => decR w .and
  | 1, 0 => decR w .mul
  | 1, 1 => decR w .mulh
  | 1, 2 => decR w .mulhsu
  | 1, 3 => decR w .mulhu
  | 16, 2 => decR w .sh1add
  | 16, 4 => decR w .sh2add
  | 16, 6 => decR w .sh3add
  | 32, 7 => decR w .andn
  | 32, 6 => decR w .orn
  | 32, 4 => decR w .xnor
  | 5, 6 => decR w .max
  | 5, 7 => decR w .maxu
  | 5, 4 => decR w .min
  | 5, 5 => decR w .minu
  | 4, 4 => if field w 20 5 = 0 then decR2 w .zextH else .error .illegal
  | 48, 1 => decR w .rol
  | 48, 5 => decR w .ror
  | 36, 1 => decR w .bclr
  | 36, 5 => decR w .bext
  | 52, 1 => decR w .binv
  | 20, 1 => decR w .bset
  | _, _ => .error .illegal

/-- Opcode 0010011, funct3 001 (R145, 42_b_extension.md R300). -/
def decShiftLeft (w : Nat) : Except Reject Instr :=
  match field w 25 7 with
  | 0 => decShift w .slli
  | 48 =>
    match field w 20 5 with
    | 0 => decR2 w .clz
    | 1 => decR2 w .ctz
    | 2 => decR2 w .cpop
    | 4 => decR2 w .sextB
    | 5 => decR2 w .sextH
    | _ => .error .illegal
  | 36 => decShift w .bclri
  | 52 => decShift w .binvi
  | 20 => decShift w .bseti
  | _ => .error .illegal

/-- Opcode 0010011, funct3 101 (R145, 42_b_extension.md R300). -/
def decShiftRight (w : Nat) : Except Reject Instr :=
  match field w 25 7 with
  | 0 => decShift w .srli
  | 32 => decShift w .srai
  | 48 => decShift w .rori
  | 36 => decShift w .bexti
  | 20 => if field w 20 5 = 7 then decR2 w .orcB else .error .illegal
  | 52 => if field w 20 5 = 24 then decR2 w .rev8 else .error .illegal
  | _ => .error .illegal

/-- Opcode 0010011. -/
def decOpImm (w : Nat) : Except Reject Instr :=
  match field w 12 3 with
  | 0 => decI w .addi
  | 1 => decShiftLeft w
  | 2 => decI w .slti
  | 3 => decI w .sltiu
  | 4 => decI w .xori
  | 5 => decShiftRight w
  | 6 => decI w .ori
  | _ => decI w .andi

/-- Opcode 0000011. -/
def decLoad (w : Nat) : Except Reject Instr :=
  match field w 12 3 with
  | 0 => decI w .lb
  | 1 => decI w .lh
  | 2 => decI w .lw
  | 4 => decI w .lbu
  | 5 => decI w .lhu
  | _ => .error .illegal

/-- Opcode 0100011. -/
def decStore (w : Nat) : Except Reject Instr :=
  match field w 12 3 with
  | 0 => decS w .sb
  | 1 => decS w .sh
  | 2 => decS w .sw
  | _ => .error .illegal

/-- Opcode 1100011. -/
def decBranch (w : Nat) : Except Reject Instr :=
  match field w 12 3 with
  | 0 => decB w .beq
  | 1 => decB w .bne
  | 4 => decB w .blt
  | 5 => decB w .bge
  | 6 => decB w .bltu
  | 7 => decB w .bgeu
  | _ => .error .illegal

/-- Opcode 1110011 (R150, R152, R164). -/
def decSystem (w : Nat) : Except Reject Instr :=
  match field w 12 3 with
  | 0 =>
    if w = 0x00000073 then .ok .ecall
    else if w = 0x00100073 then .ok .ebreak
    else if w = 0x30200073 then .ok .mret
    else if w = 0x10500073 then .ok .wfi
    else .error .illegal
  | 1 => decCsr w .csrrw
  | 2 => decCsr w .csrrs
  | 3 => decCsr w .csrrc
  | 5 => decCsrImm w .csrrwi
  | 6 => decCsrImm w .csrrsi
  | 7 => decCsrImm w .csrrci
  | _ => .error .illegal

/-- Opcode 0001111 (R151, R163 a): the fields that must be 0 name no register, so a non-zero one is unsettled. -/
def decFence (w : Nat) : Except Reject Instr :=
  match field w 12 3 with
  | 0 =>
    if field w 28 4 = 0 ∧ field w 15 5 = 0 ∧ field w 7 5 = 0 then
      .ok (.fence (BitVec.ofNat 4 (field w 24 4)) (BitVec.ofNat 4 (field w 20 4)))
    else .error .unsettled
  | 1 => if w = 0x0000100F then .ok .fenceI else .error .unsettled
  | _ => .error .illegal

/-- Opcode 1011011, custom-2 (R153, 45_coprocessor.md R383, R386 to R395). -/
def decCustom2 (w : Nat) : Except Reject Instr :=
  let index := BitVec.ofNat 2 (field w 30 2)
  match field w 12 3, field w 25 5 with
  | 0, 0 => withReg (field w 15 5) fun rs1 =>
      .ok (.cpx0 index rs1 (BitVec.ofNat 10 (field w 20 5 * 2 ^ 5 + field w 7 5)))
  | 0, 1 => withReg (field w 15 5) fun rs1 =>
      if field w 20 5 = 0 ∧ field w 7 5 = 0 then .ok (.cpx1 index rs1) else .error .cpxReserved
  | 1, 0 => withReg (field w 7 5) fun rd => withReg (field w 15 5) fun rs1 =>
      .ok (.cpx2 index rd rs1 (BitVec.ofNat 5 (field w 20 5)))
  | 1, 1 => withReg (field w 7 5) fun rd => withReg (field w 15 5) fun rs1 =>
      if field w 20 5 = 0 then .ok (.cpx3 index rd rs1) else .error .cpxReserved
  | 0, 2 => withReg (field w 15 5) fun rs1 => withReg (field w 20 5) fun rs2 =>
      .ok (.cpx4 index rs1 rs2 (BitVec.ofNat 5 (field w 7 5)))
  | 0, 3 => withReg (field w 15 5) fun rs1 => withReg (field w 20 5) fun rs2 =>
      if field w 7 5 = 0 then .ok (.cpx5 index rs1 rs2) else .error .cpxReserved
  | 1, 2 => withReg (field w 7 5) fun rd => withReg (field w 15 5) fun rs1 => withReg (field w 20 5) fun rs2 =>
      .ok (.cpx6 index rd rs1 rs2)
  | 7, _ => withReg (field w 7 5) fun rd => withReg (field w 15 5) fun rs1 =>
      .ok (.cpx9 index rd rs1 (BitVec.ofNat 10 (field w 20 10)))
  | _, _ => .error (.custom (BitVec.ofNat 32 w))

/-- The 32-bit instruction whose value is `w`, by its opcode, bits [6:0] (R154). -/
def decode32 (w : Nat) : Except Reject Instr :=
  match field w 0 7 with
  | 0x33 => decOp w
  | 0x13 => decOpImm w
  | 0x03 => decLoad w
  | 0x23 => decStore w
  | 0x63 => decBranch w
  | 0x37 => decU w .lui
  | 0x17 => decU w .auipc
  | 0x6F => decJ w .jal
  | 0x67 => if field w 12 3 = 0 then decI w .jalr else .error .illegal
  | 0x73 => decSystem w
  | 0x0F => decFence w
  | 0x5B => decCustom2 w
  | 0x2B => .error (.custom (BitVec.ofNat 32 w))
  | 0x7B => .error (.custom (BitVec.ofNat 32 w))
  | _ => .error .illegal

/-! ## 16-bit formats (R155 to R159, 43_zca.md R338) -/

/-- The six-bit immediate inst[12], inst[6:2] (R157). -/
def ciImm (p : Nat) : Nat := field p 12 1 * 2 ^ 5 + field p 2 5

/-- The 8-bit field of C.ADDI4SPN, nzuimm[9:2] (R158). -/
def addi4spnImm (p : Nat) : Nat := field p 7 4 * 2 ^ 4 + field p 11 2 * 2 ^ 2 + field p 5 1 * 2 + field p 6 1

/-- The 6-bit field of C.ADDI16SP, nzimm[9:4] (R158). -/
def addi16spImm (p : Nat) : Nat :=
  field p 12 1 * 2 ^ 5 + field p 3 2 * 2 ^ 3 + field p 5 1 * 2 ^ 2 + field p 2 1 * 2 + field p 6 1

/-- The 5-bit field of C.LW and C.SW, uimm[6:2] (R158). -/
def clwImm (p : Nat) : Nat := field p 5 1 * 2 ^ 4 + field p 10 3 * 2 + field p 6 1

/-- The 6-bit field of C.LWSP, uimm[7:2] (R158). -/
def clwspImm (p : Nat) : Nat := field p 2 2 * 2 ^ 4 + field p 12 1 * 2 ^ 3 + field p 4 3

/-- The 6-bit field of C.SWSP, uimm[7:2] (R158). -/
def cswspImm (p : Nat) : Nat := field p 7 2 * 2 ^ 4 + field p 9 4

/-- The 8-bit field of C.BEQZ and C.BNEZ, offset[8:1] (R158). -/
def cbImm (p : Nat) : Nat :=
  field p 12 1 * 2 ^ 7 + field p 5 2 * 2 ^ 5 + field p 2 1 * 2 ^ 4 + field p 10 2 * 2 ^ 2 + field p 3 2

/-- The 11-bit field of C.J and C.JAL, offset[11:1] (R157). -/
def cjImm (p : Nat) : Nat :=
  field p 12 1 * 2 ^ 10 + field p 8 1 * 2 ^ 9 + field p 9 2 * 2 ^ 7 + field p 6 1 * 2 ^ 6 + field p 7 1 * 2 ^ 5
    + field p 2 1 * 2 ^ 4 + field p 11 1 * 2 ^ 3 + field p 3 3

/-- The 2-bit byte offset of C.LBU and C.SB: inst[5], inst[6] (R159). -/
def zcbByteImm (p : Nat) : Nat := field p 5 1 * 2 + field p 6 1

/-- Quadrant 00 (R338, R163 b, R163 j, R164). -/
def decQ0 (p : Nat) : Except Reject Instr :=
  let rd := cregAt p 2
  let rs1 := cregAt p 7
  match field p 13 3 with
  | 0 =>
    if p = 0 then .error .illegal
    else if addi4spnImm p = 0 then .error .unsettled
    else .ok (.cAddi4spn rd (BitVec.ofNat 8 (addi4spnImm p)))
  | 2 => .ok (.cLw rd rs1 (BitVec.ofNat 5 (clwImm p)))
  | 4 =>
    match field p 10 3, field p 6 1 with
    | 0, _ => .ok (.cLbu rd rs1 (BitVec.ofNat 2 (zcbByteImm p)))
    | 1, 0 => .ok (.cLhu rd rs1 (BitVec.ofNat 1 (field p 5 1)))
    | 1, _ => .ok (.cLh rd rs1 (BitVec.ofNat 1 (field p 5 1)))
    | 2, _ => .ok (.cSb rd rs1 (BitVec.ofNat 2 (zcbByteImm p)))
    | 3, 0 => .ok (.cSh rd rs1 (BitVec.ofNat 1 (field p 5 1)))
    | _, _ => .error .unsettled
  | 6 => .ok (.cSw rd rs1 (BitVec.ofNat 5 (clwImm p)))
  | _ => .error .illegal

/-- Quadrant 01, funct3 100 (R338, R163 f, R163 i). -/
def decQ1Alu (p : Nat) : Except Reject Instr :=
  let rd := cregAt p 7
  let rs2 := cregAt p 2
  match field p 10 2 with
  | 0 => if field p 12 1 = 0 ∧ field p 2 5 ≠ 0 then .ok (.cSrli rd (BitVec.ofNat 5 (field p 2 5))) else .error .unsettled
  | 1 => if field p 12 1 = 0 ∧ field p 2 5 ≠ 0 then .ok (.cSrai rd (BitVec.ofNat 5 (field p 2 5))) else .error .unsettled
  | 2 => .ok (.cAndi rd (BitVec.ofNat 6 (ciImm p)))
  | _ =>
    match field p 12 1, field p 5 2 with
    | 0, 0 => .ok (.cSub rd rs2)
    | 0, 1 => .ok (.cXor rd rs2)
    | 0, 2 => .ok (.cOr rd rs2)
    | 0, _ => .ok (.cAnd rd rs2)
    | _, 2 => .ok (.cMul rd rs2)
    | _, 3 =>
      match field p 2 3 with
      | 0 => .ok (.cZextB rd)
      | 1 => .ok (.cSextB rd)
      | 2 => .ok (.cZextH rd)
      | 3 => .ok (.cSextH rd)
      | 5 => .ok (.cNot rd)
      | _ => .error .unsettled
    | _, _ => .error .unsettled

/-- Quadrant 01 (R338, R163 c, d, e). -/
def decQ1 (p : Nat) : Except Reject Instr :=
  match field p 13 3 with
  | 0 => withReg (field p 7 5) fun rd =>
      if rd = 0 ∧ ciImm p = 0 then .ok .cNop
      else if rd = 0 ∨ ciImm p = 0 then .error .unsettled
      else .ok (.cAddi rd (BitVec.ofNat 6 (ciImm p)))
  | 1 => .ok (.cJal (BitVec.ofNat 11 (cjImm p)))
  | 2 => withReg (field p 7 5) fun rd =>
      if rd = 0 then .error .unsettled else .ok (.cLi rd (BitVec.ofNat 6 (ciImm p)))
  | 3 => withReg (field p 7 5) fun rd =>
      if ciImm p = 0 ∨ rd = 0 then .error .unsettled
      else if rd = 2 then .ok (.cAddi16sp (BitVec.ofNat 6 (addi16spImm p)))
      else .ok (.cLui rd (BitVec.ofNat 6 (ciImm p)))
  | 4 => decQ1Alu p
  | 5 => .ok (.cJ (BitVec.ofNat 11 (cjImm p)))
  | 6 => .ok (.cBeqz (cregAt p 7) (BitVec.ofNat 8 (cbImm p)))
  | _ => .ok (.cBnez (cregAt p 7) (BitVec.ofNat 8 (cbImm p)))

/-- The register list of a Zcmp stack instruction: only 4, 5 and 6 exist (R163 k, 44_zcb_zcmp_zcmt.md R362). -/
def decStack (p : Nat) (k : RegList → BitVec 2 → Instr) : Except Reject Instr :=
  let spimm := BitVec.ofNat 2 (field p 2 2)
  match field p 4 4 with
  | 4 => .ok (k .ra spimm)
  | 5 => .ok (k .raS0 spimm)
  | 6 => .ok (k .raS0S1 spimm)
  | _ => .error .unsettled

/-- A register field of CM.MVSA01 or CM.MVA01S: only 000 and 001 exist (R367). -/
def decSReg (n : Nat) : Option SReg :=
  match n with
  | 0 => some .s0
  | 1 => some .s1
  | _ => none

/-- The two registers of a double move. A field that names s2 to s7 (x18 to x23) makes the word illegal: 10_state.md R23 and
the ruling 90_conflicts.md C20 are followed, where R163 k (D10) and R367 call such words unsettled (notes/assumptions/31.md). -/
def withSRegs (p : Nat) (k : SReg → SReg → Except Reject Instr) : Except Reject Instr :=
  match decSReg (field p 7 3), decSReg (field p 2 3) with
  | some r1, some r2 => k r1 r2
  | _, _ => .error .illegal

/-- CM.MVSA01 and CM.MVA01S (44_zcb_zcmp_zcmt.md R367, R368). -/
def decMove (p : Nat) : Except Reject Instr :=
  match field p 5 2 with
  | 1 => withSRegs p fun r1 r2 => if r1 = r2 then .error .unsettled else .ok (.cmMvsa01 r1 r2)
  | 3 => withSRegs p fun r1 r2 => .ok (.cmMva01s r1 r2)
  | _ => .error .unsettled

/-- Quadrant 10, funct3 101: Zcmp and Zcmt (R338, R163 k). -/
def decZcmpZcmt (p : Nat) : Except Reject Instr :=
  match field p 8 5 with
  | 24 => decStack p .cmPush
  | 26 => decStack p .cmPop
  | 28 => decStack p .cmPopretz
  | 30 => decStack p .cmPopret
  | _ =>
    match field p 10 3 with
    | 0 =>
      if field p 2 8 < 32 then .ok (.cmJt (BitVec.ofNat 5 (field p 2 8)))
      else .ok (.cmJalt (BitVec.ofNat 8 (field p 2 8)))
    | 3 => decMove p
    | _ => .error .unsettled

/-- Quadrant 10 (R338, R163 f, g, h). -/
def decQ2 (p : Nat) : Except Reject Instr :=
  match field p 13 3 with
  | 0 => withReg (field p 7 5) fun rd =>
      if rd = 0 ∨ field p 12 1 ≠ 0 ∨ field p 2 5 = 0 then .error .unsettled
      else .ok (.cSlli rd (BitVec.ofNat 5 (field p 2 5)))
  | 2 => withReg (field p 7 5) fun rd =>
      if rd = 0 then .error .unsettled else .ok (.cLwsp rd (BitVec.ofNat 6 (clwspImm p)))
  | 4 => withReg (field p 7 5) fun rd => withReg (field p 2 5) fun rs2 =>
      if field p 12 1 = 0 then
        if rs2 = 0 then (if rd = 0 then .error .unsettled else .ok (.cJr rd))
        else if rd = 0 then .error .unsettled
        else .ok (.cMv rd rs2)
      else
        if rs2 = 0 then (if rd = 0 then .ok .cEbreak else .ok (.cJalr rd))
        else if rd = 0 then .error .unsettled
        else .ok (.cAdd rd rs2)
  | 5 => decZcmpZcmt p
  | 6 => withReg (field p 2 5) fun rs2 => .ok (.cSwsp rs2 (BitVec.ofNat 6 (cswspImm p)))
  | _ => .error .illegal

/-- The 16-bit instruction whose parcel is `p` (R338). -/
def decode16 (p : Nat) : Except Reject Instr :=
  match field p 0 2 with
  | 0 => decQ0 p
  | 1 => decQ1 p
  | _ => decQ2 p

/-- A parcel that begins a 32-bit instruction: bits [1:0] are 11 and bits [4:2] are not 111 (R141). -/
def isWide (p : Nat) : Bool := p % 4 == 3 && p % 32 != 31

/-- The 16-bit parcel of two bytes, low byte first (20_memory.md R110). -/
def parcel (b0 b1 : Byte) : Nat := b0.toNat + b1.toNat * 2 ^ 8

/-- The instruction at the head of `bytes`, by the length rule (R141). -/
def decode : List Byte → Except Reject Instr
  | b0 :: b1 :: rest =>
    if parcel b0 b1 % 4 ≠ 3 then decode16 (parcel b0 b1)
    else if parcel b0 b1 % 32 = 31 then .error .illegal
    else
      match rest with
      | b2 :: b3 :: _ => decode32 (parcel b0 b1 + parcel b2 b3 * 2 ^ 16)
      | _ => .error .truncated
  | _ => .error .truncated

/-- The `n` low bytes of `w`, low byte first (20_memory.md R111). -/
def leBytes : Nat → Nat → List Byte
  | 0, _ => []
  | n + 1, w => BitVec.ofNat 8 w :: leBytes n (w / 2 ^ 8)

/-- The instruction the decoder reads from an instruction whose bits are `w`, its words stored low byte first;
bits above `nbits` are 0. -/
def decodeTableWord (nbits w : Nat) : Option Instr :=
  match decode (leBytes 4 (w % 2 ^ nbits)) with
  | .ok i => some i
  | .error _ => none

/-! ## The encoder: the same formats, written the other way -/

/-- R format (R143). -/
def encR (f7 f3 op : Nat) (rd rs1 rs2 : Reg) : Nat :=
  f7 * 2 ^ 25 + rs2.val * 2 ^ 20 + rs1.val * 2 ^ 15 + f3 * 2 ^ 12 + rd.val * 2 ^ 7 + op

/-- The two-register form whose bits [31:20] are `top` (R277). -/
def encR2 (top f3 op : Nat) (rd rs1 : Reg) : Nat :=
  top * 2 ^ 20 + rs1.val * 2 ^ 15 + f3 * 2 ^ 12 + rd.val * 2 ^ 7 + op

/-- I format (R144). -/
def encI (f3 op : Nat) (rd rs1 : Reg) (imm : BitVec 12) : Nat :=
  imm.toNat * 2 ^ 20 + rs1.val * 2 ^ 15 + f3 * 2 ^ 12 + rd.val * 2 ^ 7 + op

/-- Shift-immediate form (R145). -/
def encShift (f7 f3 : Nat) (rd rs1 : Reg) (shamt : BitVec 5) : Nat :=
  f7 * 2 ^ 25 + shamt.toNat * 2 ^ 20 + rs1.val * 2 ^ 15 + f3 * 2 ^ 12 + rd.val * 2 ^ 7 + 0x13

/-- S format (R146). -/
def encS (f3 : Nat) (rs2 rs1 : Reg) (imm : BitVec 12) : Nat :=
  field imm.toNat 5 7 * 2 ^ 25 + rs2.val * 2 ^ 20 + rs1.val * 2 ^ 15 + f3 * 2 ^ 12
    + field imm.toNat 0 5 * 2 ^ 7 + 0x23

/-- B format (R147). -/
def encB (f3 : Nat) (rs1 rs2 : Reg) (imm : BitVec 12) : Nat :=
  field imm.toNat 11 1 * 2 ^ 31 + field imm.toNat 4 6 * 2 ^ 25 + rs2.val * 2 ^ 20 + rs1.val * 2 ^ 15 + f3 * 2 ^ 12
    + field imm.toNat 0 4 * 2 ^ 8 + field imm.toNat 10 1 * 2 ^ 7 + 0x63

/-- U format (R148). -/
def encU (op : Nat) (rd : Reg) (imm : BitVec 20) : Nat := imm.toNat * 2 ^ 12 + rd.val * 2 ^ 7 + op

/-- J format (R149). -/
def encJ (rd : Reg) (imm : BitVec 20) : Nat :=
  field imm.toNat 19 1 * 2 ^ 31 + field imm.toNat 0 10 * 2 ^ 21 + field imm.toNat 10 1 * 2 ^ 20
    + field imm.toNat 11 8 * 2 ^ 12 + rd.val * 2 ^ 7 + 0x6F

/-- CSR format with an immediate source (R150). -/
def encCsrImm (f3 : Nat) (rd : Reg) (imm : BitVec 5) (csr : BitVec 12) : Nat :=
  csr.toNat * 2 ^ 20 + imm.toNat * 2 ^ 15 + f3 * 2 ^ 12 + rd.val * 2 ^ 7 + 0x73

/-- cpx format (R153): `low` is bits [11:7] and `mid` bits [24:20]. -/
def encCpx (func f3 : Nat) (index : BitVec 2) (low : Nat) (rs1 : Reg) (mid : Nat) : Nat :=
  index.toNat * 2 ^ 30 + func * 2 ^ 25 + mid * 2 ^ 20 + rs1.val * 2 ^ 15 + f3 * 2 ^ 12 + low * 2 ^ 7 + 0x5B

/-- CR format (R155, R156). -/
def encCr (f4 : Nat) (rd rs2 : Nat) : Nat := f4 * 2 ^ 12 + rd * 2 ^ 7 + rs2 * 2 ^ 2 + 2

/-- CI format (R156, R157): the six-bit field `imm`. -/
def encCi (f3 op : Nat) (rd : Nat) (imm : Nat) : Nat :=
  f3 * 2 ^ 13 + field imm 5 1 * 2 ^ 12 + rd * 2 ^ 7 + field imm 0 5 * 2 ^ 2 + op

/-- CA format (R156): `f6` is bits [15:10], `f2` bits [6:5]. -/
def encCa (f6 f2 : Nat) (rd rs2 : CReg) : Nat :=
  f6 * 2 ^ 10 + rd.val * 2 ^ 7 + f2 * 2 ^ 5 + rs2.val * 2 ^ 2 + 1

/-- CB format of the shifts and of C.ANDI (R156). -/
def encCbAlu (f2 : Nat) (rd : CReg) (imm : Nat) : Nat :=
  4 * 2 ^ 13 + field imm 5 1 * 2 ^ 12 + f2 * 2 ^ 10 + rd.val * 2 ^ 7 + field imm 0 5 * 2 ^ 2 + 1

/-- CB format of the branches (R156, R158). -/
def encCb (f3 : Nat) (rs1 : CReg) (imm : BitVec 8) : Nat :=
  f3 * 2 ^ 13 + field imm.toNat 7 1 * 2 ^ 12 + field imm.toNat 2 2 * 2 ^ 10 + rs1.val * 2 ^ 7
    + field imm.toNat 5 2 * 2 ^ 5 + field imm.toNat 0 2 * 2 ^ 3 + field imm.toNat 4 1 * 2 ^ 2 + 1

/-- CJ format (R156, R157). -/
def encCj (f3 : Nat) (imm : BitVec 11) : Nat :=
  f3 * 2 ^ 13 + field imm.toNat 10 1 * 2 ^ 12 + field imm.toNat 3 1 * 2 ^ 11 + field imm.toNat 7 2 * 2 ^ 9
    + field imm.toNat 9 1 * 2 ^ 8 + field imm.toNat 5 1 * 2 ^ 7 + field imm.toNat 6 1 * 2 ^ 6
    + field imm.toNat 0 3 * 2 ^ 3 + field imm.toNat 4 1 * 2 ^ 2 + 1

/-- CL and CS formats of the word accesses (R156, R158). -/
def encClw (f3 : Nat) (r rs1 : CReg) (imm : BitVec 5) : Nat :=
  f3 * 2 ^ 13 + field imm.toNat 1 3 * 2 ^ 10 + rs1.val * 2 ^ 7 + field imm.toNat 0 1 * 2 ^ 6
    + field imm.toNat 4 1 * 2 ^ 5 + r.val * 2 ^ 2

/-- The Zcb load and store formats (R156, R159): `two` is bits [6:5]. -/
def encZcb (f6 two : Nat) (r rs1 : CReg) : Nat := f6 * 2 ^ 10 + rs1.val * 2 ^ 7 + two * 2 ^ 5 + r.val * 2 ^ 2

/-- Bits [6:5] of C.LBU and C.SB (R159). -/
def encByteImm (imm : BitVec 2) : Nat := field imm.toNat 0 1 * 2 + field imm.toNat 1 1

/-- CU format (R156). -/
def encCu (funct3 : Nat) (rd : CReg) : Nat := 39 * 2 ^ 10 + rd.val * 2 ^ 7 + 3 * 2 ^ 5 + funct3 * 2 ^ 2 + 1

/-- The rlist field of a register list (R362). -/
def RegList.code : RegList → Nat
  | .ra => 4
  | .raS0 => 5
  | .raS0S1 => 6

/-- The field of a saved register (R367). -/
def SReg.code : SReg → Nat
  | .s0 => 0
  | .s1 => 1

/-- CMPP format (R156): `f5` is bits [12:8]. -/
def encStack (f5 : Nat) (l : RegList) (spimm : BitVec 2) : Nat :=
  5 * 2 ^ 13 + f5 * 2 ^ 8 + l.code * 2 ^ 4 + spimm.toNat * 2 ^ 2 + 2

/-- CMMV format (R156). -/
def encMove (f2 : Nat) (r1 r2 : SReg) : Nat :=
  5 * 2 ^ 13 + 3 * 2 ^ 10 + r1.code * 2 ^ 7 + f2 * 2 ^ 5 + r2.code * 2 ^ 2 + 2

/-- CMJT format (R156). -/
def encTable (index : Nat) : Nat := 5 * 2 ^ 13 + index * 2 ^ 2 + 2

/-- The value of an instruction's encoding: a 32-bit value, or a 16-bit parcel for the compressed families. -/
def encode : Instr → Nat
  | .add rd rs1 rs2 => encR 0 0 0x33 rd rs1 rs2
  | .addi rd rs1 imm => encI 0 0x13 rd rs1 imm
  | .and rd rs1 rs2 => encR 0 7 0x33 rd rs1 rs2
  | .andi rd rs1 imm => encI 7 0x13 rd rs1 imm
  | .auipc rd imm => encU 0x17 rd imm
  | .beq rs1 rs2 imm => encB 0 rs1 rs2 imm
  | .bge rs1 rs2 imm => encB 5 rs1 rs2 imm
  | .bgeu rs1 rs2 imm => encB 7 rs1 rs2 imm
  | .blt rs1 rs2 imm => encB 4 rs1 rs2 imm
  | .bltu rs1 rs2 imm => encB 6 rs1 rs2 imm
  | .bne rs1 rs2 imm => encB 1 rs1 rs2 imm
  | .csrrc rd rs1 csr => encI 3 0x73 rd rs1 csr
  | .csrrci rd imm csr => encCsrImm 7 rd imm csr
  | .csrrs rd rs1 csr => encI 2 0x73 rd rs1 csr
  | .csrrsi rd imm csr => encCsrImm 6 rd imm csr
  | .csrrw rd rs1 csr => encI 1 0x73 rd rs1 csr
  | .csrrwi rd imm csr => encCsrImm 5 rd imm csr
  | .ebreak => 0x00100073
  | .ecall => 0x00000073
  | .fence pred succ => pred.toNat * 2 ^ 24 + succ.toNat * 2 ^ 20 + 0x0F
  | .fenceI => 0x0000100F
  | .jal rd imm => encJ rd imm
  | .jalr rd rs1 imm => encI 0 0x67 rd rs1 imm
  | .lb rd rs1 imm => encI 0 0x03 rd rs1 imm
  | .lbu rd rs1 imm => encI 4 0x03 rd rs1 imm
  | .lh rd rs1 imm => encI 1 0x03 rd rs1 imm
  | .lhu rd rs1 imm => encI 5 0x03 rd rs1 imm
  | .lui rd imm => encU 0x37 rd imm
  | .lw rd rs1 imm => encI 2 0x03 rd rs1 imm
  | .mret => 0x30200073
  | .or rd rs1 rs2 => encR 0 6 0x33 rd rs1 rs2
  | .ori rd rs1 imm => encI 6 0x13 rd rs1 imm
  | .sb rs2 rs1 imm => encS 0 rs2 rs1 imm
  | .sh rs2 rs1 imm => encS 1 rs2 rs1 imm
  | .sll rd rs1 rs2 => encR 0 1 0x33 rd rs1 rs2
  | .slli rd rs1 shamt => encShift 0 1 rd rs1 shamt
  | .slt rd rs1 rs2 => encR 0 2 0x33 rd rs1 rs2
  | .slti rd rs1 imm => encI 2 0x13 rd rs1 imm
  | .sltiu rd rs1 imm => encI 3 0x13 rd rs1 imm
  | .sltu rd rs1 rs2 => encR 0 3 0x33 rd rs1 rs2
  | .sra rd rs1 rs2 => encR 32 5 0x33 rd rs1 rs2
  | .srai rd rs1 shamt => encShift 32 5 rd rs1 shamt
  | .srl rd rs1 rs2 => encR 0 5 0x33 rd rs1 rs2
  | .srli rd rs1 shamt => encShift 0 5 rd rs1 shamt
  | .sub rd rs1 rs2 => encR 32 0 0x33 rd rs1 rs2
  | .sw rs2 rs1 imm => encS 2 rs2 rs1 imm
  | .wfi => 0x10500073
  | .xor rd rs1 rs2 => encR 0 4 0x33 rd rs1 rs2
  | .xori rd rs1 imm => encI 4 0x13 rd rs1 imm
  | .mul rd rs1 rs2 => encR 1 0 0x33 rd rs1 rs2
  | .mulh rd rs1 rs2 => encR 1 1 0x33 rd rs1 rs2
  | .mulhsu rd rs1 rs2 => encR 1 2 0x33 rd rs1 rs2
  | .mulhu rd rs1 rs2 => encR 1 3 0x33 rd rs1 rs2
  | .sh1add rd rs1 rs2 => encR 16 2 0x33 rd rs1 rs2
  | .sh2add rd rs1 rs2 => encR 16 4 0x33 rd rs1 rs2
  | .sh3add rd rs1 rs2 => encR 16 6 0x33 rd rs1 rs2
  | .andn rd rs1 rs2 => encR 32 7 0x33 rd rs1 rs2
  | .orn rd rs1 rs2 => encR 32 6 0x33 rd rs1 rs2
  | .xnor rd rs1 rs2 => encR 32 4 0x33 rd rs1 rs2
  | .clz rd rs1 => encR2 0x600 1 0x13 rd rs1
  | .ctz rd rs1 => encR2 0x601 1 0x13 rd rs1
  | .cpop rd rs1 => encR2 0x602 1 0x13 rd rs1
  | .max rd rs1 rs2 => encR 5 6 0x33 rd rs1 rs2
  | .maxu rd rs1 rs2 => encR 5 7 0x33 rd rs1 rs2
  | .min rd rs1 rs2 => encR 5 4 0x33 rd rs1 rs2
  | .minu rd rs1 rs2 => encR 5 5 0x33 rd rs1 rs2
  | .sextB rd rs1 => encR2 0x604 1 0x13 rd rs1
  | .sextH rd rs1 => encR2 0x605 1 0x13 rd rs1
  | .zextH rd rs1 => encR2 0x080 4 0x33 rd rs1
  | .rol rd rs1 rs2 => encR 48 1 0x33 rd rs1 rs2
  | .ror rd rs1 rs2 => encR 48 5 0x33 rd rs1 rs2
  | .rori rd rs1 shamt => encShift 48 5 rd rs1 shamt
  | .orcB rd rs1 => encR2 0x287 5 0x13 rd rs1
  | .rev8 rd rs1 => encR2 0x698 5 0x13 rd rs1
  | .bclr rd rs1 rs2 => encR 36 1 0x33 rd rs1 rs2
  | .bclri rd rs1 shamt => encShift 36 1 rd rs1 shamt
  | .bext rd rs1 rs2 => encR 36 5 0x33 rd rs1 rs2
  | .bexti rd rs1 shamt => encShift 36 5 rd rs1 shamt
  | .binv rd rs1 rs2 => encR 52 1 0x33 rd rs1 rs2
  | .binvi rd rs1 shamt => encShift 52 1 rd rs1 shamt
  | .bset rd rs1 rs2 => encR 20 1 0x33 rd rs1 rs2
  | .bseti rd rs1 shamt => encShift 20 1 rd rs1 shamt
  | .cAdd rd rs2 => encCr 9 rd.val rs2.val
  | .cAddi rd imm => encCi 0 1 rd.val imm.toNat
  | .cAddi4spn rd imm =>
    field imm.toNat 2 2 * 2 ^ 11 + field imm.toNat 4 4 * 2 ^ 7 + field imm.toNat 0 1 * 2 ^ 6
      + field imm.toNat 1 1 * 2 ^ 5 + rd.val * 2 ^ 2
  | .cAddi16sp imm =>
    3 * 2 ^ 13 + field imm.toNat 5 1 * 2 ^ 12 + 2 * 2 ^ 7 + field imm.toNat 0 1 * 2 ^ 6 + field imm.toNat 2 1 * 2 ^ 5
      + field imm.toNat 3 2 * 2 ^ 3 + field imm.toNat 1 1 * 2 ^ 2 + 1
  | .cAnd rd rs2 => encCa 35 3 rd rs2
  | .cAndi rd imm => encCbAlu 2 rd imm.toNat
  | .cBeqz rs1 imm => encCb 6 rs1 imm
  | .cBnez rs1 imm => encCb 7 rs1 imm
  | .cEbreak => 0x9002
  | .cJ imm => encCj 5 imm
  | .cJal imm => encCj 1 imm
  | .cJalr rs1 => encCr 9 rs1.val 0
  | .cJr rs1 => encCr 8 rs1.val 0
  | .cLi rd imm => encCi 2 1 rd.val imm.toNat
  | .cLui rd imm => encCi 3 1 rd.val imm.toNat
  | .cLw rd rs1 imm => encClw 2 rd rs1 imm
  | .cLwsp rd imm =>
    2 * 2 ^ 13 + field imm.toNat 3 1 * 2 ^ 12 + rd.val * 2 ^ 7 + field imm.toNat 0 3 * 2 ^ 4
      + field imm.toNat 4 2 * 2 ^ 2 + 2
  | .cMv rd rs2 => encCr 8 rd.val rs2.val
  | .cNop => 0x0001
  | .cOr rd rs2 => encCa 35 2 rd rs2
  | .cSlli rd shamt => encCi 0 2 rd.val shamt.toNat
  | .cSrai rd shamt => encCbAlu 1 rd shamt.toNat
  | .cSrli rd shamt => encCbAlu 0 rd shamt.toNat
  | .cSw rs2 rs1 imm => encClw 6 rs2 rs1 imm
  | .cSwsp rs2 imm =>
    6 * 2 ^ 13 + field imm.toNat 0 4 * 2 ^ 9 + field imm.toNat 4 2 * 2 ^ 7 + rs2.val * 2 ^ 2 + 2
  | .cSub rd rs2 => encCa 35 0 rd rs2
  | .cXor rd rs2 => encCa 35 1 rd rs2
  | .cLbu rd rs1 imm => encZcb 32 (encByteImm imm) rd rs1
  | .cLhu rd rs1 imm => encZcb 33 imm.toNat rd rs1
  | .cLh rd rs1 imm => encZcb 33 (2 + imm.toNat) rd rs1
  | .cSb rs2 rs1 imm => encZcb 34 (encByteImm imm) rs2 rs1
  | .cSh rs2 rs1 imm => encZcb 35 imm.toNat rs2 rs1
  | .cZextB rd => encCu 0 rd
  | .cSextB rd => encCu 1 rd
  | .cZextH rd => encCu 2 rd
  | .cSextH rd => encCu 3 rd
  | .cNot rd => encCu 5 rd
  | .cMul rd rs2 => encCa 39 2 rd rs2
  | .cmPush l spimm => encStack 24 l spimm
  | .cmPop l spimm => encStack 26 l spimm
  | .cmPopretz l spimm => encStack 28 l spimm
  | .cmPopret l spimm => encStack 30 l spimm
  | .cmMvsa01 r1 r2 => encMove 1 r1 r2
  | .cmMva01s r1 r2 => encMove 3 r1 r2
  | .cmJt index => encTable index.toNat
  | .cmJalt index => encTable index.toNat
  | .cpx0 index rs1 uimm => encCpx 0 0 index (field uimm.toNat 0 5) rs1 (field uimm.toNat 5 5)
  | .cpx1 index rs1 => encCpx 1 0 index 0 rs1 0
  | .cpx2 index rd rs1 uimm => encCpx 0 1 index rd.val rs1 uimm.toNat
  | .cpx3 index rd rs1 => encCpx 1 1 index rd.val rs1 0
  | .cpx4 index rs1 rs2 uimm => encCpx 2 0 index uimm.toNat rs1 rs2.val
  | .cpx5 index rs1 rs2 => encCpx 3 0 index 0 rs1 rs2.val
  | .cpx6 index rd rs1 rs2 => encCpx 2 1 index rd.val rs1 rs2.val
  | .cpx9 index rd rs1 uimm => encCpx (field uimm.toNat 5 5) 7 index rd.val rs1 (field uimm.toNat 0 5)

/-- The length of an instruction in bytes: 2 when the low two bits of its encoding are not 11 (R141). -/
def Instr.length (i : Instr) : Nat := if encode i % 4 = 3 then 4 else 2

/-- The bytes of an instruction, low byte first (20_memory.md R110). -/
def encodeBytes (i : Instr) : List Byte := leBytes i.length (encode i)

end Sys2Proof
end

