-- ==== Sys2Proof/Config.lean ====
section
/-!
DEFINITION. What a build and an integration of the E901 fix (00_scope.md R9, R10), and the free values of the model.
The build is plain data and stands in State; a free value is an opaque constant here, so that no proof can evaluate it.
-/

namespace Sys2Proof

/-- What the bus answers for an access (20_memory.md R102, R108). -/
inductive Response
  /-- Backed by memory. -/
  | memory
  /-- A device of the platform, whose behaviour the spec does not give. -/
  | device
  /-- The slave answers ERROR. -/
  | error
  deriving DecidableEq, Repr, Inhabited

/-- The kinds of access the platform map distinguishes (R108). -/
inductive AccessKind
  | fetch
  | load
  | store
  deriving DecidableEq, Repr, Inhabited

/-- MUL_KIND (R9): the two multipliers differ in timing only. -/
inductive MulKind
  | none
  | small
  | fast
  deriving DecidableEq, Repr, Inhabited

/-- DEBUG_RES (R9). -/
inductive DebugRes
  | none
  | minimal
  | typical
  deriving DecidableEq, Repr, Inhabited

/-- The two kinds of trigger (10_state.md R57). -/
inductive TriggerKind
  /-- TYPE is hardwired 2. -/
  | mcontrol
  /-- TYPE may be written 3, 4 or 5. -/
  | configurable
  deriving DecidableEq, Repr, Inhabited

/-- SYSBUS_PROTOCOL (R9): AHB-Lite or AHB 2.0; no program can tell. -/
inductive SysbusProtocol
  | ahbLite
  | ahb2
  deriving DecidableEq, Repr, Inhabited

/-- JTAG_TYPE (R9): the debugger's transport; no program can tell. -/
inductive JtagType
  | twoWire
  | fiveWire
  deriving DecidableEq, Repr, Inhabited

/-- RTL_TYPE (R9); no program can tell. -/
inductive RtlType
  | asic
  | fpga
  deriving DecidableEq, Repr, Inhabited

/-- One region of the platform map (R102); addresses are main-space addresses. -/
structure Region where
  base : Nat
  size : Nat
  fetch : Response
  load : Response
  store : Response
  deriving DecidableEq, Repr, Inhabited

/-- MXSTATUS_LAYOUT (R10, 10_state.md R50): the bit of COPINSTEE, the low bit of PM, what every other bit reads. -/
structure MxstatusLayout where
  copBit : Nat
  pmLow : Nat
  other : Word
  deriving DecidableEq, Repr, Inhabited

/-- MEXSTATUS_LAYOUT (R10, 10_state.md R53): the lowest bit of each field. -/
structure MexstatusLayout where
  softRst : Nat
  lpmd : Nat
  wfe : Nat
  exptVld : Nat
  lockup : Nat
  deriving DecidableEq, Repr, Inhabited

/-- A set of instruction words: those whose bits under `mask` are `value`. -/
structure WordPattern where
  mask : Word
  value : Word
  deriving DecidableEq, Repr, Inhabited

/-- The build and integration options (R9, R10). No meaning reads `sysbus`, `jtag` and `rtl`: R9 gives them no visible effect. -/
structure Config where
  hasB : Bool
  mul : MulKind
  hasIbus : Bool
  ibusBase : BitVec 12
  ibusMask : BitVec 12
  sysbus : SysbusProtocol
  hasCop : Bool
  debugRes : DebugRes
  extIntNum : Nat
  hasCounters : Bool
  vecFixed : Bool
  mtvecFixed : Word
  mtvtFixed : Word
  jvtFixed : Word
  jtag : JtagType
  rtl : RtlType
  resetAddr : BitVec 21
  hartidLow : BitVec 3
  mcpuid : Word
  triggers : List TriggerKind
  /-- The first region that holds an address decides; an address in no region is memory. -/
  platform : List Region
  /-- The custom words that the integrator's module sc_iu_decd_cop_decd takes as user-defined coprocessor instructions
  (30_encoding.md R165, 45_coprocessor.md R385, 92 D22; notes/assumptions/57.md). A pattern matters for the words of custom-1,
  custom-2 and custom-3 that are no cpx row, and for no other. -/
  userCop : List WordPattern
  mxstatus : MxstatusLayout
  mexstatus : MexstatusLayout
  deriving DecidableEq, Repr, Inhabited

/-- The masks of table 7.1 but the 2 MiB one, which R104 (c) forbids (20_memory.md R103). -/
def ibusMasks : List (BitVec 12) :=
  [0xFFF, 0xFFE, 0xFFC, 0xFF8, 0xFF0, 0xFE0, 0xFC0, 0xF80, 0xF00, 0xE00, 0xC00, 0x800]

/-- The fields of the mexstatus layout do not overlap and fit the register. -/
def MexstatusLayout.wf (l : MexstatusLayout) : Bool :=
  let bits := [l.softRst, l.softRst + 1, l.lpmd, l.lpmd + 1, l.wfe, l.exptVld, l.lockup]
  decide bits.Nodup && bits.all (· < 32)

/-- A configuration R9, R102 to R104 and R469 allow; the step refuses every other one (R104 b, c, 93 U2). -/
def Config.wf (c : Config) : Bool :=
  (!c.hasIbus || (ibusMasks.contains c.ibusMask && c.ibusBase &&& ~~~c.ibusMask == 0))
    && decide (1 ≤ c.extIntNum ∧ c.extIntNum ≤ 112)
    && c.resetAddr.toNat % 4 == 0
    && (match c.debugRes with
        | .none => c.triggers.length == 0
        | .minimal => c.triggers.length == 1
        | .typical => c.triggers.length == 4)
    && decide (c.mxstatus.copBit < 32 ∧ c.mxstatus.pmLow < 31)
    && (c.mxstatus.copBit != c.mxstatus.pmLow && c.mxstatus.copBit != c.mxstatus.pmLow + 1)
    && c.mexstatus.wf

/-- The build State.reset uses: every option present, every main-space address memory (notes/assumptions/1.md).
The layouts are the family's (PRESUMED, notes/assumptions/10.md and 11.md). -/
def Config.default : Config where
  hasB := true
  mul := .fast
  hasIbus := false
  ibusBase := 0
  ibusMask := 0xFFF
  sysbus := .ahbLite
  hasCop := true
  debugRes := .typical
  extIntNum := 112
  hasCounters := true
  vecFixed := false
  mtvecFixed := 0
  mtvtFixed := 0
  jvtFixed := 0
  jtag := .fiveWire
  rtl := .asic
  resetAddr := 0
  hartidLow := 0
  mcpuid := 0
  triggers := [.mcontrol, .configurable, .configurable, .configurable]
  platform := []
  userCop := []
  mxstatus := { copBit := 24, pmLow := 30, other := 0 }
  mexstatus := { softRst := 0, lpmd := 2, wfe := 4, exptVld := 5, lockup := 6 }

/-- One trigger's registers (10_state.md R57 to R59). -/
structure Trigger where
  kind : TriggerKind
  type : BitVec 4
  dmode : Bool
  data : BitVec 27
  tdata2 : Word
  mvalue : BitVec 6
  mselect : Bool
  deriving DecidableEq, Repr, Inhabited

/-- A request the core sent to a coprocessor: its index, the whole instruction word, the source values
(45_coprocessor.md R383 (4)). -/
structure CopReq where
  index : BitVec 2
  word : Word
  srcs : List Word
  deriving DecidableEq, Repr, Inhabited

/-- An access the core made to a device of the platform: kind, main-space address, width in bytes, the value stored. -/
structure DeviceAccess where
  kind : AccessKind
  addr : Nat
  bytes : Nat
  data : Word
  deriving DecidableEq, Repr, Inhabited

/-- The state whose reset value the spec does not give (70_reset_and_hazards.md R481). -/
inductive UnstatedReset
  | gpr (i : Fin 16)
  | mscratch
  | mepc
  | jvt
  | copinstee
  | tselect
  | mcontext
  | dcsr
  | dpc
  | dscratch0
  | dscratch1
  | mhaltcause
  deriving DecidableEq, Repr, Inhabited

/-! ## Free values

Each is a value the spec leaves open. The first argument, where there is one, is State.tick, so that every step draws anew. -/

/-- PC_HIGH_POLICY (92 D3): whether the pc keeps bits [31:21]. -/
inductive PcHighPolicy
  | keep32
  | trunc21
  deriving DecidableEq, Repr, Inhabited

/-- CSRRWI_UPPER (92 D7). -/
inductive CsrrwiUpper
  | preserve
  | zero
  deriving DecidableEq, Repr, Inhabited

/-- What a trigger does at a boundary (60_exceptions.md R469). -/
inductive TriggerFire
  | none
  | breakpoint
  | enterDebug
  deriving DecidableEq, Repr, Inhabited

/-- CLICCFG_NLBITS_READ (92 D35). -/
inductive NlbitsRead
  | zero
  | seven
  | written
  deriving DecidableEq, Repr, Inhabited

/-- PC_HIGH_POLICY (10_state.md R28; notes/assumptions/7.md). -/
opaque Config.pcHighPolicy : PcHighPolicy

/-- CSRRWI_UPPER (40_rv32e_base.md R244; notes/assumptions/8.md). -/
opaque Config.csrrwiUpper : CsrrwiUpper

/-- The bits of misa that the field text does not fix (10_state.md R37; notes/assumptions/9.md). -/
opaque Config.misaOther : Word

/-- RO_CSR_WRITE: whether a write of a read-only CSR of R35 (e) raises illegal instruction or is ignored
(notes/assumptions/14.md). -/
opaque Config.roCsrWriteTraps : BitVec 12 → Bool

/-- EXPT_VLD_ON_INTERRUPT (60_exceptions.md R415; notes/assumptions/19.md). -/
opaque Config.exptVldOnInterrupt : Bool

/-- Whether mcause bit 8 is held (10_state.md R44; notes/assumptions/15.md). -/
opaque Config.mcauseBit8Held : Bool

/-- Whether a write of mcause.MPIE changes mstatus.MPIE (10_state.md R44; notes/assumptions/16.md). -/
opaque Config.mcauseMpieWrites : Bool

/-- What mip reads (10_state.md R45; notes/assumptions/12.md). -/
opaque Config.mipValue : Nat → Word

/-- What mhcr reads (10_state.md R51; notes/assumptions/13.md). -/
opaque Config.mhcrValue : Nat → Word

/-- What mpcfifo reads (10_state.md R68; notes/assumptions/40.md). -/
opaque Config.mpcfifoValue : Nat → Word

/-- What mdbginfo reads (10_state.md R67; notes/assumptions/40.md). -/
opaque Config.mdbginfoValue : Nat → Word

/-- CLICINFO_VALUE (60_exceptions.md R445; notes/assumptions/27.md). -/
opaque Config.clicinfo : Word

/-- CLICCFG_NLBITS_READ (60_exceptions.md R444; notes/assumptions/27.md). -/
opaque Config.nlbitsRead : NlbitsRead

/-- The pending latch of a source whose TRIG changes while it is pending or its line is active
(60_exceptions.md R447; notes/assumptions/26.md). -/
opaque Config.ipAfterTrigChange : Nat → Nat → Bool

/-- Whether C.SEXT.B, C.ZEXT.H and C.SEXT.H exist in a build without B (44_zcb_zcmp_zcmt.md R350; notes/assumptions/33.md). -/
opaque Config.zcbWithoutB : Bool

/-- Whether the k-th transfer done before a Zcmp exception is kept (44_zcb_zcmp_zcmt.md R373; notes/assumptions/34.md). -/
opaque Config.zcmpKept : Nat → Nat → Bool

/-- COP_ORACLE (45_coprocessor.md R381): the word a coprocessor answers, from every request sent so far
(notes/assumptions/36.md). -/
opaque Config.copResult : List CopReq → Word

/-- What a device answers a read, from the step and from every access made to devices so far, this one first
(20_memory.md R102, R116, R117; notes/assumptions/6.md). -/
opaque Config.deviceAnswer : Nat → List DeviceAccess → Word

/-- Where a vectored interrupt goes when its table word is odd (60_exceptions.md R424; notes/assumptions/23.md). -/
opaque Config.oddVectorTarget : Nat → Word → Word

/-- What a reset by the platform leaves where the spec gives no value (70_reset_and_hazards.md R481, R482;
notes/assumptions/51.md). -/
opaque Config.resetValue : Nat → UnstatedReset → Word

/-- What the armed triggers do at a boundary (60_exceptions.md R469; notes/assumptions/38.md). -/
opaque Config.triggerFire : Nat → List Trigger → TriggerFire

/-- The trigger selected after a write of a number without a trigger (10_state.md R56; notes/assumptions/39.md). -/
opaque Config.tselectOther : Nat → Word → Nat

/-- tdata1.TYPE after a write of an unsupported type (10_state.md R57; notes/assumptions/38.md): one of 3, 4 and 5. -/
opaque Config.tdata1Type : Nat → BitVec 4 → Fin 3

/-- Whether a machine-mode write of a trigger with DMODE = 1 raises illegal instruction or is ignored
(10_state.md R57; notes/assumptions/38.md). -/
opaque Config.dmodeWriteTraps : Bool

/-- What mhaltcause holds after a write (10_state.md R66; notes/assumptions/40.md): bits [31:4]. -/
opaque Config.mhaltcauseHigh : BitVec 28 → BitVec 28

/-- mexstatus.SOFT_RST after a write of the unimplemented value 2'b11 (10_state.md R53; notes/assumptions/11.md). -/
opaque Config.softRstAfter11 : BitVec 2 → BitVec 2

/-- Whether an instruction that changes whether minstret counts is itself counted (10_state.md R49; notes/assumptions/53.md). -/
opaque Config.countedOnChange : Bool

/-- How many cycles a step takes where the input script says nothing (10_state.md R48; notes/assumptions/28.md). -/
opaque Config.cycles : Nat → Nat

/-- How far pad_cpu_sys_cnt advances in a step where the input script says nothing (60_exceptions.md R443;
notes/assumptions/29.md). -/
opaque Config.sysTicks : Nat → Word

/-- dcsr.CAUSE after an asynchronous debug request (60_exceptions.md R466; notes/assumptions/52.md). -/
opaque Config.asyncCause : BitVec 3

end Sys2Proof
end

