-- ==== Sys2Proof/Machine/State.lean ====
section
/-!
DEFINITION. The state of the machine, as INVENTORY.md lists it, the reasons a step can stop, and the state after reset.
-/

namespace Sys2Proof.Machine

/-- A model fault: software broke a rule of the manual whose outcome the manual calls unpredictable or does not give. -/
inductive Fault
  /-- An interrupt would be taken inside an interrupt handler (60_exceptions.md R427). Raised by the boundary. Safe. -/
  | nestedInterrupt
  /-- A load or store of an address of the instruction-bus region (20_memory.md R104 a). Raised by data accesses. Safe. -/
  | ibusData
  /-- A fetch, jump-table or vector-table read of a location of memory or of a device stored to since the last FENCE.I
  (20_memory.md R122). Safe. -/
  | staleFetch
  deriving DecidableEq, Repr

/-- A refusal: the spec gives the step no effect. -/
inductive Refusal
  /-- The instruction has no meaning yet. Raised by exec. Safe. -/
  | notModelled (mnemonic : String)
  /-- A word of 30_encoding.md R163. Raised by step. Safe. -/
  | unsettledEncoding
  /-- A custom word that is no cpx row, in a build with coprocessors (30_encoding.md R165), but one the platform defines while
  COPINSTEE = 0 (45_coprocessor.md R382). Raised by step. Safe. -/
  | customInstruction
  /-- A TCIP access shape or address of 20_memory.md R109 (d). Raised by data accesses. Safe. -/
  | tcipAccess
  /-- mscratchcswl by an instruction other than CSRRW (10_state.md R41). Raised by CSR instructions. Safe. -/
  | mscratchcswlForm
  /-- A write of mhcr, which no rule describes (10_state.md R51). Raised by CSR instructions. Safe. -/
  | mhcrWrite
  /-- A trigger or debug CSR in a build without debug resources (91_not_in_source.md N31). Raised by CSR instructions. Safe. -/
  | debugCsrAbsent
  /-- TRIG = 2'b10 (60_exceptions.md R449). Raised by stores. Safe. -/
  | reservedTrigger
  /-- Source 3 or 7 in edge mode (60_exceptions.md R420). Raised by stores. Safe. -/
  | clintEdgeMode
  /-- A Zcmp stack access in the TCIP window (44_zcb_zcmp_zcmt.md R373). Raised by the Zcmp meanings. Safe. -/
  | zcmpTcip
  /-- A jump table or vector table in the TCIP window (44_zcb_zcmp_zcmt.md R370, 60_exceptions.md R424). Safe. -/
  | tableTcip
  /-- A vector table read answered by ERROR (60_exceptions.md R424). Raised by interrupt entry. Safe. -/
  | vectorTableError
  /-- A fetch from the TCIP window (20_memory.md R110). Raised by step. Safe. -/
  | fetchTcip
  /-- An asynchronous debug request that halts the hart inside an instruction (60_exceptions.md R471: "a model gives it
  none"). Raised by the boundary. Safe. -/
  | asyncDebugRequest
  /-- The debugger has the halted hart execute an instruction that reads or sets the pc, or half an instruction; no rule
  says what it does (91_not_in_source.md N27). Raised by debugger commands. Safe. -/
  | debugInstruction
  /-- A build the manual forbids (20_memory.md R104 b, c; 93_implementation_defined.md U2). Raised by the boundary. Safe. -/
  | illegalBuild
  deriving DecidableEq, Repr

/-- The CSRs of 10_state.md R32. -/
inductive CsrName
  | jvt
  | mstatus
  | misa
  | mtvec
  | mcounteren
  | mtvt
  | mcountinhibit
  | mscratch
  | mepc
  | mcause
  | mip
  | mscratchcswl
  | mclicbase
  | tselect
  | tdata1
  | tdata2
  | tdata3
  | tinfo
  | tcontrol
  | mcontext
  | dcsr
  | dpc
  | dscratch0
  | dscratch1
  | mxstatus
  | mhcr
  | mraddr
  | mexstatus
  | mcycle
  | minstret
  | mvendorid
  | marchid
  | mimpid
  | mhartid
  | mcpuid
  | mhaltcause
  | mdbginfo
  | mpcfifo
  deriving DecidableEq, Repr

/-- Machine CSRs: the fields that are held (10_state.md R36 to R55). -/
structure Csrs where
  /-- mstatus.MIE (R36). -/
  mie : Bool
  /-- mstatus.MPIE (R36). -/
  mpie : Bool
  /-- mtvec[31:6] (R38). -/
  mtvecBase : BitVec 26
  /-- mtvt[31:6] (R39). -/
  mtvtBase : BitVec 26
  /-- jvt[31:6] (R55). -/
  jvtBase : BitVec 26
  /-- mscratch (R40). -/
  mscratch : Word
  /-- mepc (R43). -/
  mepc : Word
  /-- mcause.Interrupt (R44). -/
  causeInt : Bool
  /-- mcause.MINHV (R44). -/
  minhv : Bool
  /-- mcause bits [8:0] (R44). -/
  causeCode : BitVec 9
  /-- mip, a free value drawn at every step (R45). -/
  mip : Word
  /-- mhcr, a free value drawn at every step (R51). -/
  mhcr : Word
  /-- mxstatus.COPINSTEE (R50). -/
  copEn : Bool
  /-- mexstatus.SOFT_RST (R53). -/
  softRst : BitVec 2
  /-- mexstatus.LPMD (R53). -/
  lpmd : BitVec 2
  /-- mexstatus.WFE (R53). -/
  wfe : Bool
  /-- mexstatus.EXPT_VLD (R53, 60_exceptions.md R415). -/
  exptVld : Bool
  /-- mexstatus.LOCKUP, the locked-up state (R53, 60_exceptions.md R416). -/
  lockup : Bool
  deriving DecidableEq, Repr

/-- The counters (10_state.md R47 to R49). -/
structure Counters where
  /-- mcountinhibit.MCY. -/
  mcy : Bool
  /-- mcountinhibit.MIR. -/
  mir : Bool
  mcycle : Word
  minstret : Word
  deriving DecidableEq, Repr

/-- The debug unit (10_state.md R56 to R68). -/
structure DebugUnit where
  /-- The number of the selected trigger (R56). -/
  tselect : Nat
  /-- The triggers, by number (R57 to R59). -/
  triggers : List Trigger
  /-- tcontrol.MTE (R61). -/
  mte : Bool
  /-- tcontrol.MPTE (R61). -/
  mpte : Bool
  /-- mcontext (R62). -/
  mcontext : BitVec 6
  /-- dcsr.EBREAKM, STEPIE, STOPCOUNT, MPRVEN, STEP and CAUSE (R63). -/
  ebreakm : Bool
  stepie : Bool
  stopcount : Bool
  mprven : Bool
  step : Bool
  cause : BitVec 3
  /-- dpc (R64). -/
  dpc : Word
  /-- dscratch0 and dscratch1 (R65). -/
  dscratch0 : Word
  dscratch1 : Word
  /-- mhaltcause (R66). -/
  mhaltcause : Word
  /-- mdbginfo, a free value drawn at every step (R67). -/
  mdbginfo : Word
  /-- mpcfifo, a free value drawn at every step (R68). -/
  mpcfifo : Word
  /-- The hart is in debug mode (R72 f). -/
  debugMode : Bool
  deriving DecidableEq, Repr

/-- One interrupt source of the CLIC (60_exceptions.md R446 to R449). -/
structure ClicSource where
  /-- The pending latch of an edge source; a level source's IP is its line. -/
  latch : Bool
  /-- clicintie.IE. -/
  ie : Bool
  /-- clicintattr.TRIG[0]. -/
  edge : Bool
  /-- clicintattr.TRIG[1]. -/
  falling : Bool
  /-- clicintattr.SHV. -/
  shv : Bool
  deriving DecidableEq, Repr

/-- The CLINT and the CLIC (60_exceptions.md R440 to R452). -/
structure Clic where
  /-- msip.MSIP (R441). -/
  msip : Bool
  /-- mtimecmpl (R442). -/
  mtimecmp : Word
  /-- cliccfg.NLBITS as last written (R444). -/
  nlbits : BitVec 4
  /-- The sources by interrupt id; ids without a source are never pending (R452). -/
  sources : Vector ClicSource 128
  deriving DecidableEq, Repr

/-- An address range whose accesses of one kind the bus answers with ERROR in this step (20_memory.md R108,
93_implementation_defined.md part 2). -/
structure BusError where
  kind : AccessKind
  base : Nat
  size : Nat
  deriving DecidableEq, Repr, Inhabited

/-- The input pins as last sampled (70_reset_and_hazards.md R495). -/
structure Pins where
  /-- pad_clic_int_vld; bit k drives source 16 + k. -/
  lines : BitVec 112
  /-- pad_cpu_sys_cnt, which mtimel reads (60_exceptions.md R443). -/
  sysCnt : Word
  /-- The external event (60_exceptions.md R461). -/
  event : Bool
  /-- What the bus answers with ERROR beside the platform map (20_memory.md R108). -/
  busErrors : List BusError
  deriving DecidableEq, Repr

/-- An entry of the ghost trap stack (60_exceptions.md R428). -/
inductive TrapKind
  | exc
  | irq
  deriving DecidableEq, Repr

/-- A debug request (60_exceptions.md R466, R471). -/
inductive DebugRequest
  /-- dmcontrol.haltreq. -/
  | sync
  /-- customcmd type 0, met at an instruction boundary. -/
  | async
  /-- customcmd type 0, met inside the instruction of this step. -/
  | asyncInside
  /-- The reset-halt request. -/
  | resetHalt
  deriving DecidableEq, Repr

/-- The widths of a data access (20_memory.md R113). -/
inductive Width
  | byte
  | half
  | word
  deriving DecidableEq, Repr

/-- What the debugger does with a halted hart (60_exceptions.md R466 to R470). -/
inductive DebugCommand
  | writeGpr (r : Reg) (v : Word)
  | writeCsr (c : CsrName) (v : Word)
  | writeMem (w : Width) (a v : Word)
  /-- A read; only a device can notice it. -/
  | readMem (w : Width) (a : Word)
  /-- The two program buffers, which an implicit EBREAK ends (R465). Their width is the model's (notes/assumptions/58.md). -/
  | progbuf (w0 w1 : Word)
  /-- One instruction through `itr` (R468), whose width is the model's too. -/
  | itr (w : Word)
  | resume
  deriving DecidableEq, Repr

/-- A reset the platform makes (70_reset_and_hazards.md R480, R482). -/
inductive PlatformReset
  /-- The core alone. -/
  | core
  /-- The system: the platform says what memory holds after it. -/
  | system (mem : List Host.Cell)
  deriving DecidableEq, Repr

/-- What the outside does in one step (70_reset_and_hazards.md R495): a record of the input script. -/
structure StepInput where
  /-- Clock cycles the step takes (10_state.md R48). -/
  cycles : Nat
  sysCnt : Word
  lines : BitVec 112
  event : Bool
  busErrors : List BusError
  reset : Option PlatformReset
  request : Option DebugRequest
  command : Option DebugCommand
  deriving DecidableEq, Repr

/-- The machine. -/
structure State where
  /-- The build (00_scope.md R9); no step changes it. -/
  cfg : Config
  /-- x0 to x15 (10_state.md R20); slot 0 is never read. -/
  regs : Vector Word 16
  /-- The address of the instruction being executed (10_state.md R25). -/
  pc : Word
  csr : Csrs
  ctr : Counters
  dbg : DebugUnit
  clic : Clic
  pins : Pins
  /-- Main memory, addresses below 2^21 (20_memory.md R102), in the canonical form Memory.wf. -/
  mem : List Host.Cell
  /-- The main-space addresses stored to since the last FENCE.I (20_memory.md R122), rising. -/
  stale : List Nat
  /-- The low-power state (60_exceptions.md R460). -/
  sleeping : Bool
  /-- The ghost trap stack, top first (60_exceptions.md R428). -/
  trapStack : List TrapKind
  /-- The requests sent to the coprocessors, newest first (45_coprocessor.md R381, R383). -/
  cop : List CopReq
  /-- The data accesses made to devices of the platform, newest first (20_memory.md R102, R116). -/
  devices : List DeviceAccess
  /-- MODEL: the input script not yet consumed. -/
  inputs : List StepInput
  /-- MODEL: the number of steps begun; it indexes the free values. -/
  tick : Nat
  deriving DecidableEq, Repr

/-- What happens at the boundary before the next instruction. -/
inductive Boundary
  /-- The hart runs the next instruction. -/
  | run
  /-- The hart executes nothing in this step. -/
  | stay
  /-- The hart, halted, executes a debugger command. -/
  | command (c : DebugCommand)
  /-- The hart enters debug mode with these dcsr.CAUSE and mhaltcause values. -/
  | halt (cause : BitVec 3) (haltcause : BitVec 4)
  /-- The interrupt with this id is taken. -/
  | interrupt (id : Nat)
  /-- A trigger raises the breakpoint exception. -/
  | breakpoint
  /-- The platform resets the core; `halt` where a reset-halt request is outstanding. -/
  | reset (r : PlatformReset) (halt : Bool)
  | fault (f : Fault)
  | refused (r : Refusal)
  deriving DecidableEq, Repr

/-- A trigger after reset, by its kind (10_state.md R57 to R59). -/
def resetTrigger (k : TriggerKind) : Trigger where
  kind := k
  type := match k with
    | .mcontrol => 2
    | .configurable => 5
  dmode := false
  data := 0
  tdata2 := 0
  mvalue := 0
  mselect := false

/-- A source after reset (60_exceptions.md R446 to R449): clicintattr reads 0xC0. -/
def resetSource : ClicSource := { latch := false, ie := false, edge := false, falling := false, shv := false }

/-- The machine of the build `c` right after reset (70_reset_and_hazards.md R480, R481).
Values the spec does not give: notes/assumptions/2.md to 5.md, 12.md, 13.md, 36.md, 40.md, 47.md. -/
def State.resetWith (c : Config) : State where
  cfg := c
  regs := Vector.replicate 16 0
  pc := c.resetAddr.setWidth 32
  csr :=
    { mie := false, mpie := false
      mtvecBase := if c.vecFixed then c.mtvecFixed.extractLsb' 6 26 else 0
      mtvtBase := if c.vecFixed then c.mtvtFixed.extractLsb' 6 26 else 0
      jvtBase := if c.vecFixed then c.jvtFixed.extractLsb' 6 26 else 0
      mscratch := 0, mepc := 0, causeInt := false, minhv := false, causeCode := 0, mip := 0, mhcr := 0
      copEn := false, softRst := 0, lpmd := 0, wfe := true, exptVld := false, lockup := false }
  ctr := { mcy := false, mir := false, mcycle := 0, minstret := 0 }
  dbg :=
    { tselect := 0, triggers := c.triggers.map resetTrigger, mte := false, mpte := false, mcontext := 0
      ebreakm := false, stepie := false, stopcount := false, mprven := false, step := false, cause := 0
      dpc := 0, dscratch0 := 0, dscratch1 := 0, mhaltcause := 0, mdbginfo := 0, mpcfifo := 0, debugMode := false }
  clic := { msip := false, mtimecmp := 0xFFFFFFFF, nlbits := 0, sources := Vector.replicate 128 resetSource }
  pins := { lines := 0, sysCnt := 0, event := false, busErrors := [] }
  mem := []
  stale := []
  sleeping := false
  trapStack := []
  cop := []
  devices := []
  inputs := []
  tick := 0

/-- The machine right after reset, in the build notes/assumptions/1.md names. -/
def State.reset : State := State.resetWith Config.default

end Sys2Proof.Machine
end

