-- ==== Sys2Proof/Machine/Memory.lean ====
section
/-!
DEFINITION. Main memory (20_memory.md R100 to R111): bytes in canonical form, little-endian words, the platform map,
and the bytes stored since the last FENCE.I.
-/

namespace Sys2Proof.Machine

/-- The size of the main space, 2 MiB (R102). -/
def mainSize : Nat := 2 ^ 21

/-- What a byte that nothing has written reads as (notes/assumptions/5.md). -/
def unwritten : Byte := 0

/-- The byte at a main-space address. -/
def Memory.readByte : List Host.Cell → Nat → Byte
  | [], _ => unwritten
  | (k, v) :: m, a => if k = a then v else Memory.readByte m a

/-- Memory with one byte written, in canonical form. -/
def Memory.writeByte : List Host.Cell → Nat → Byte → List Host.Cell
  | [], a, v => if v = unwritten then [] else [(a, v)]
  | (k, w) :: m, a, v =>
    if a < k then (if v = unwritten then (k, w) :: m else (a, v) :: (k, w) :: m)
    else if a = k then (if v = unwritten then m else (a, v) :: m)
    else (k, w) :: Memory.writeByte m a v

/-- The canonical form: addresses strictly rising, inside the main space, and no entry an unlisted byte reads as. -/
abbrev Memory.wf (m : List Host.Cell) : Prop :=
  m.Pairwise (fun c d => c.1 < d.1) ∧ ∀ c ∈ m, c.1 < mainSize ∧ c.2 ≠ unwritten

/-- The number of bytes of an access. -/
def Width.bytes : Width → Nat
  | .byte => 1
  | .half => 2
  | .word => 4

/-- The bytes at `a` to `a + n - 1` as one little-endian value, zero-extended (R111). -/
def Memory.read (m : List Host.Cell) (w : Width) (a : Nat) : Word :=
  match w with
  | .byte => (Memory.readByte m a).setWidth 32
  | .half => (Memory.readByte m (a + 1) ++ Memory.readByte m a).setWidth 32
  | .word =>
    Memory.readByte m (a + 3) ++ Memory.readByte m (a + 2) ++ Memory.readByte m (a + 1) ++ Memory.readByte m a

/-- The low bytes of `v` written at `a`, low byte at the lowest address (R111). -/
def Memory.write (m : List Host.Cell) (w : Width) (a : Nat) (v : Word) : List Host.Cell :=
  match w with
  | .byte => Memory.writeByte m a (v.extractLsb' 0 8)
  | .half => Memory.writeByte (Memory.writeByte m a (v.extractLsb' 0 8)) (a + 1) (v.extractLsb' 8 8)
  | .word =>
    Memory.writeByte
      (Memory.writeByte
        (Memory.writeByte (Memory.writeByte m a (v.extractLsb' 0 8)) (a + 1) (v.extractLsb' 8 8))
        (a + 2) (v.extractLsb' 16 8))
      (a + 3) (v.extractLsb' 24 8)

/-- An address in a rising list. -/
def insertAddr : List Nat → Nat → List Nat
  | [], a => [a]
  | k :: l, a => if a < k then a :: k :: l else if a = k then k :: l else k :: insertAddr l a

/-- The addresses `a` to `a + n - 1` added to a rising list. -/
def insertAddrs (l : List Nat) (a : Nat) : Nat → List Nat
  | 0 => l
  | n + 1 => insertAddrs (insertAddr l a) (a + 1) n

/-- Some address of `a` to `a + n - 1` has been stored to since the last FENCE.I (R122). -/
def isStale (l : List Nat) (a : Nat) : Nat → Bool
  | 0 => false
  | n + 1 => l.contains a || isStale l (a + 1) n

/-- The main-space address an effective address names (R101 (2)). -/
def mainAddr (a : Word) : Nat := a.toNat % mainSize

/-- The TCIP window (R101 (1)). -/
def inTcip (a : Word) : Bool := decide (0xE0000000 ≤ a.toNat ∧ a.toNat ≤ 0xEFFFFFFF)

/-- The instruction-bus region (R103). -/
def inIbus (c : Config) (a : Nat) : Bool :=
  c.hasIbus && (BitVec.ofNat 12 (a / 2 ^ 9) &&& c.ibusMask) == (c.ibusBase &&& c.ibusMask)

/-- The region of the platform map that holds an address: the first listed one. -/
def findRegion : List Region → Nat → Option Region
  | [], _ => none
  | r :: l, a => if r.base ≤ a ∧ a < r.base + r.size then some r else findRegion l a

/-- What the platform map says of a main-space address (R102; notes/assumptions/6.md). -/
def mapped (c : Config) (k : AccessKind) (a : Nat) : Response :=
  match findRegion c.platform a with
  | none => .memory
  | some r =>
    match k with
    | .fetch => r.fetch
    | .load => r.load
    | .store => r.store

/-- The bus answers ERROR in this step, whatever the map says (R108, 93 part 2). -/
def busError (l : List BusError) (k : AccessKind) (a : Nat) : Bool :=
  l.any fun e => e.kind == k && decide (e.base ≤ a ∧ a < e.base + e.size)

/-- What the bus answers for a transfer at a main-space address (R102, R108). -/
def response (s : State) (k : AccessKind) (a : Nat) : Response :=
  if busError s.pins.busErrors k a then .error else mapped s.cfg k a

/-- The low bytes of a value, zero-extended. -/
def lowBytes (w : Width) (v : Word) : Word :=
  match w with
  | .byte => (v.extractLsb' 0 8).setWidth 32
  | .half => (v.extractLsb' 0 16).setWidth 32
  | .word => v

/-- The state after an access to a device (R102, R116; notes/assumptions/6.md). -/
def toDevice (s : State) (k : AccessKind) (w : Width) (a : Nat) (v : Word) : State :=
  { s with devices := { kind := k, addr := a, bytes := w.bytes, data := lowBytes w v } :: s.devices }

/-- What the device answers a read that leaves the history of `s` (R117). -/
def deviceData (s : State) (w : Width) : Word := lowBytes w (Config.deviceAnswer s.tick s.devices)

/-- A memory of the listed bytes, in canonical form. -/
def Memory.ofCells (l : List Host.Cell) : List Host.Cell :=
  l.foldl (fun m c => Memory.writeByte m (c.1 % mainSize) c.2) []

/-- Natural alignment, on the full effective address (R106). -/
def misaligned (w : Width) (a : Word) : Bool := a.toNat % w.bytes != 0

/-- What an access answers. -/
inductive Res (α : Type)
  | ok (v : α)
  /-- A synchronous exception with this code (60_exceptions.md R402). -/
  | exc (code : Nat)
  | fault (f : Fault)
  | refused (r : Refusal)
  deriving DecidableEq, Repr

end Sys2Proof.Machine
end

