-- ==== Sys2Proof/Machine/Clic.lean ====
section
/-!
DEFINITION. The CLINT and the CLIC: sources, arbitration, and their registers in the TCIP window
(60_exceptions.md R420, R421, R440 to R452).
-/

namespace Sys2Proof.Machine

/-- The ids that have a source in this build (R401, R452). -/
def hasSource (c : Config) (id : Nat) : Bool :=
  id == 3 || (id == 7 && c.hasCounters) || (decide (16 ≤ id) && decide (id < 16 + c.extIntNum) && decide (id < 128))

/-- The registers of source `id`. -/
def sourceOf (s : State) (id : Nat) : ClicSource := (s.clic.sources[id]?).getD resetSource

/-- The input line of source `id` (R420, R441, R443). -/
def lineOf (s : State) (id : Nat) : Bool :=
  if id = 3 then s.clic.msip
  else if id = 7 then decide (s.clic.mtimecmp.toNat ≤ s.pins.sysCnt.toNat)
  else decide (16 ≤ id) && s.pins.lines.getLsbD (id - 16)

/-- clicintip[id].IP: the latch of an edge source, the line of a level source (R446). -/
def isPending (s : State) (id : Nat) : Bool :=
  hasSource s.cfg id && (if (sourceOf s id).edge then (sourceOf s id).latch else lineOf s id)

/-- The source takes part in arbitration (R421). -/
def isActive (s : State) (id : Nat) : Bool := isPending s id && (sourceOf s id).ie

/-- The largest number below `n` that satisfies `p`. -/
def highest (p : Nat → Bool) : Nat → Option Nat
  | 0 => none
  | n + 1 => if p n then some n else highest p n

/-- The winner of arbitration: the active source with the largest id (R421). -/
def winner (s : State) : Option Nat := highest (isActive s) 128

/-- A bit as a byte. -/
def bitByte (b : Bool) : Byte := if b then 1 else 0

/-- One of the four registers of source `id`: 0 clicintip, 1 clicintie, 2 clicintattr, 3 clicintctl (R446 to R450). -/
def clicByte (s : State) (id k : Nat) : Byte :=
  match k with
  | 0 => bitByte (isPending s id)
  | 1 => bitByte (sourceOf s id).ie
  | 2 => 0xC0 ||| (bitByte (sourceOf s id).falling <<< 2) ||| (bitByte (sourceOf s id).edge <<< 1)
      ||| bitByte (sourceOf s id).shv
  | _ => BitVec.ofNat 8 id

/-- The id and the register of a byte address of the per-interrupt registers, where the id has a source (R109 c, R452). -/
def clicAddr (c : Config) (a : Nat) : Option (Nat × Nat) :=
  if 0xE0801000 ≤ a ∧ a < 0xE0801200 then
    if hasSource c ((a - 0xE0801000) / 4) then some ((a - 0xE0801000) / 4, (a - 0xE0801000) % 4) else none
  else none

/-- A read of the TCIP window; none where R109 (d) leaves it open. -/
def tcipRead (s : State) (w : Width) (a : Nat) : Option Word :=
  match w with
  | .half => none
  | .byte => (clicAddr s.cfg a).map fun p => (clicByte s p.1 p.2).setWidth 32
  | .word =>
    if a = 0xE0000000 then some (if s.clic.msip then 1 else 0)
    else if a = 0xE0004000 ∧ s.cfg.hasCounters then some s.clic.mtimecmp
    else if a = 0xE000BFF8 ∧ s.cfg.hasCounters then some s.pins.sysCnt
    else if a = 0xE0800000 then some (1#32 ||| (s.clic.nlbits.setWidth 32 <<< 1))
    else if a = 0xE0800004 then some Config.clicinfo
    else (clicAddr s.cfg a).map fun p => clicByte s p.1 3 ++ clicByte s p.1 2 ++ clicByte s p.1 1 ++ clicByte s p.1 0

/-- What a store of some of its bytes makes of source `id` (R446 to R449).
A pending latch is a free value where TRIG changes while the source is pending, active or set by the same store.
DESIGN CHOICE: TRIG may change whatever IE holds, where 93 U12 would refuse a change with IE = 1 (notes/assumptions/26.md). -/
def writeSource (s : State) (id : Nat) (ip ie attr : Option Byte) : Except Refusal ClicSource :=
  let old := sourceOf s id
  let edge := (attr.map fun b => b.getLsbD 1).getD old.edge
  let falling := (attr.map fun b => b.getLsbD 2).getD old.falling
  let set := (ip.map fun b => b.getLsbD 0).getD false
  if falling && !edge then .error .reservedTrigger
  else if edge && (id == 3 || id == 7) then .error .clintEdgeMode
  else .ok
    { latch :=
        if !edge then false
        else if edge == old.edge && falling == old.falling then (ip.map fun b => b.getLsbD 0).getD old.latch
        else if isPending s id || lineOf s id || set then Config.ipAfterTrigChange s.tick id
        else false
      ie := (ie.map fun b => b.getLsbD 0).getD old.ie
      edge := edge
      falling := falling
      shv := (attr.map fun b => b.getLsbD 0).getD old.shv }

/-- The state with the registers of source `id` replaced. -/
def setSource (s : State) (id : Nat) (x : ClicSource) : State :=
  { s with clic := { s.clic with sources := s.clic.sources.setIfInBounds id x } }

/-- A store to some of the four bytes of source `id`. -/
def storeSource (s : State) (id : Nat) (ip ie attr : Option Byte) : Res State :=
  match writeSource s id ip ie attr with
  | .ok x => .ok (setSource s id x)
  | .error r => .refused r

/-- cliccfg.NLBITS after a store (R444, CLICCFG_NLBITS_READ). -/
def nlbitsAfter (v : Word) : BitVec 4 :=
  match Config.nlbitsRead with
  | .zero => 0
  | .seven => 7
  | .written => v.extractLsb' 1 4

/-- A store to the TCIP window (R109, R441 to R450). -/
def tcipWrite (s : State) (w : Width) (a : Nat) (v : Word) : Res State :=
  match w with
  | .half => .refused .tcipAccess
  | .byte =>
    match clicAddr s.cfg a with
    | some (id, 0) => storeSource s id (some (v.extractLsb' 0 8)) none none
    | some (id, 1) => storeSource s id none (some (v.extractLsb' 0 8)) none
    | some (id, 2) => storeSource s id none none (some (v.extractLsb' 0 8))
    | some (_, _) => .ok s
    | none => .refused .tcipAccess
  | .word =>
    if a = 0xE0000000 then .ok { s with clic := { s.clic with msip := v.getLsbD 0 } }
    else if a = 0xE0004000 ∧ s.cfg.hasCounters then .ok { s with clic := { s.clic with mtimecmp := v } }
    else if a = 0xE0800000 then .ok { s with clic := { s.clic with nlbits := nlbitsAfter v } }
    else
      match clicAddr s.cfg a with
      | some (id, _) =>
        storeSource s id (some (v.extractLsb' 0 8)) (some (v.extractLsb' 8 8)) (some (v.extractLsb' 16 8))
      | none => .refused .tcipAccess

end Sys2Proof.Machine
end

