-- ==== Sys2Proof/Machine/Ops.lean ====
section
/-!
DEFINITION. The shared operations of the meanings: general registers, the pc, retiring, data accesses,
taking an exception and returning from one, entering and leaving debug mode.
-/

namespace Sys2Proof.Machine

/-- What a step or an instruction answers. -/
abbrev Out := Host.Outcome State Fault Refusal

/-! ## General registers (10_state.md R20, R21) -/

/-- x[r]: x0 reads 0. -/
def State.x (s : State) (r : Reg) : Word := if r = 0 then 0 else s.regs[r.val]

/-- x[r] <- v: a write to x0 is dropped. -/
def State.setX (s : State) (r : Reg) (v : Word) : State :=
  if r = 0 then s else { s with regs := s.regs.set r.val v }

/-- The register a three-bit field names (30_encoding.md R172). -/
def creg (r : CReg) : Reg := ⟨8 + r.val, by omega⟩

/-- x1, the link register. -/
def raReg : Reg := 1

/-- x2, the stack pointer. -/
def spReg : Reg := 2

/-- The register a saved-register field names (44_zcb_zcmp_zcmt.md R367). -/
def sreg : SReg → Reg
  | .s0 => 8
  | .s1 => 9

/-! ## The pc and retiring (10_state.md R25 to R28, R49) -/

/-- A pc value as the pc holds it: bits [31:21] are open (R28, PC_HIGH_POLICY; notes/assumptions/7.md). -/
def normPc (v : Word) : Word :=
  if v.toNat < mainSize then v
  else
    match Config.pcHighPolicy with
    | .keep32 => v
    | .trunc21 => v &&& 0x1FFFFF

/-- Bit 0 cleared (R27). -/
def clearBit0 (v : Word) : Word := v &&& 0xFFFFFFFE

/-- minstret counts: the counters exist, MIR = 0, and not in debug mode with STOPCOUNT = 1 (R49). -/
def countsRetired (s : State) : Bool :=
  s.cfg.hasCounters && !s.ctr.mir && !(s.dbg.debugMode && s.dbg.stopcount)

/-- minstret counts a retired instruction (R49, 92 D24). -/
def State.countRetired (s : State) : State :=
  if countsRetired s then { s with ctr := { s.ctr with minstret := s.ctr.minstret + 1 } } else s

/-- The instruction retires and the next one is at `t`. -/
def State.retireTo (s : State) (t : Word) : State := ({ s with pc := normPc t }).countRetired

/-- The instruction of `len` bytes retires and the next one follows it (R26). -/
def State.retire (s : State) (len : Word) : State := s.retireTo (s.pc + len)

/-! ## Exceptions (60_exceptions.md R410 to R416) -/

/-- The common trap entry (R412): {mtvec[31:6], 6'b0}. -/
def State.trapBase (s : State) : Word := s.csr.mtvecBase ++ (0 : BitVec 6)

/-- The debug resources exist (R9). -/
def State.hasDebug (s : State) : Bool := s.cfg.debugRes != .none

/-- tcontrol on trap entry: MPTE <- MTE, MTE <- 0, with debug resources (10_state.md R61). -/
def State.saveMte (s : State) : State :=
  if s.hasDebug then { s with dbg := { s.dbg with mpte := s.dbg.mte, mte := false } } else s

/-- Exception entry (R410). -/
def enterException (s : State) (code : Nat) : State :=
  let s := s.saveMte
  { s with
    csr :=
      { s.csr with
        mepc := normPc (clearBit0 s.pc)
        causeCode := BitVec.ofNat 9 code
        causeInt := false
        mpie := s.csr.mie
        mie := false
        exptVld := true }
    trapStack := .exc :: s.trapStack
    pc := normPc s.trapBase }

/-- Lockup (R416): the pc stays, and nothing else changes. -/
def enterLockup (s : State) : State := { s with csr := { s.csr with lockup := true } }

/-- An exception inside a handler locks the hart up; ECALL, EBREAK and C.EBREAK are exempt (R416). -/
def raise (s : State) (code : Nat) : State := if s.csr.exptVld then enterLockup s else enterException s code

/-- The illegal-instruction exception (R402, code 2). -/
def raiseIllegal (s : State) : State := raise s 2

/-- The top of the ghost stack popped (R428). -/
def popTrap : List TrapKind → List TrapKind
  | [] => []
  | _ :: l => l

/-- What MRET does beside retiring (R414, R428). -/
def returnFromTrap (s : State) : State :=
  { s with
    csr := { s.csr with mie := s.csr.mpie, mpie := true, exptVld := false }
    dbg := if s.hasDebug then { s.dbg with mte := s.dbg.mpte } else s.dbg
    trapStack := popTrap s.trapStack }

/-! ## Debug mode (60_exceptions.md R466, R467, R417) -/

/-- Debug entry: dpc receives the address of the next instruction (R466). -/
def enterDebug (s : State) (cause : BitVec 3) (haltcause : BitVec 4) : State :=
  { s with
    dbg :=
      { s.dbg with
        debugMode := true
        dpc := s.pc
        cause := cause
        mhaltcause := haltcause.setWidth 32 }
    sleeping := false }

/-- The resume pc that keeps a locked-up hart locked up (R417). -/
def lockupResumePc : Word := 0x1FFFFC

/-- Leaving debug mode (R467, R417): the ghost stack empties (R428), and any resume pc but 0x1FFFFC ends a lockup. -/
def leaveDebug (s : State) : State :=
  let stays := s.csr.lockup && s.dbg.dpc == lockupResumePc
  { s with
    pc := normPc (clearBit0 s.dbg.dpc)
    dbg := { s.dbg with debugMode := false }
    csr :=
      if s.csr.lockup && !stays then { s.csr with lockup := false, exptVld := false } else s.csr
    trapStack := [] }

/-- EBREAK and C.EBREAK (40_rv32e_base.md R248): debug mode when dcsr.EBREAKM = 1, else the breakpoint exception,
which never locks up (R416). -/
def breakpointInstruction (s : State) : State :=
  if s.hasDebug && s.dbg.ebreakm then enterDebug s 1 1 else enterException s 3

/-! ## Data accesses (20_memory.md R101 to R111) -/

/-- A read from a device: what it answers, and the state in which it has been asked. -/
def deviceRead (s : State) (w : Width) (a : Nat) : Word × State :=
  (deviceData (toDevice s .load w a 0) w, toDevice s .load w a 0)

/-- The value a load of width `w` at `a` reads, zero-extended, and the state after the access.
Alignment first, then the window, then the bus (R251). -/
def loadMem (s : State) (w : Width) (a : Word) : Res (Word × State) :=
  if misaligned w a then .exc 4
  else if inTcip a then
    match tcipRead s w a.toNat with
    | some v => .ok (v, s)
    | none => .refused .tcipAccess
  else if inIbus s.cfg (mainAddr a) then .fault .ibusData
  else
    match response s .load (mainAddr a) with
    | .memory => .ok (Memory.read s.mem w (mainAddr a), s)
    | .device => .ok (deviceRead s w (mainAddr a))
    | .error => .exc 5

/-- A store to main memory: the bytes, which a fetch may not use before FENCE.I (R122). -/
def storeMain (s : State) (w : Width) (a : Nat) (v : Word) : State :=
  { s with mem := Memory.write s.mem w a v, stale := insertAddrs s.stale a w.bytes }

/-- A store to a device: it is recorded (R102, R116), and a fetch may not use its location before FENCE.I (R122). -/
def storeDevice (s : State) (w : Width) (a : Nat) (v : Word) : State :=
  { toDevice s .store w a v with stale := insertAddrs s.stale a w.bytes }

/-- A store of the low bytes of `v` at `a`. -/
def storeMem (s : State) (w : Width) (a : Word) (v : Word) : Res State :=
  if misaligned w a then .exc 6
  else if inTcip a then tcipWrite s w a.toNat v
  else if inIbus s.cfg (mainAddr a) then .fault .ibusData
  else
    match response s .store (mainAddr a) with
    | .memory => .ok (storeMain s w (mainAddr a) v)
    | .device => .ok (storeDevice s w (mainAddr a) v)
    | .error => .exc 7

/-- Go on with the value of an access, or stop as it says; an exception is raised by the instruction in `s`. -/
def Res.elim {α : Type} (s : State) (r : Res α) (k : α → Out) : Out :=
  match r with
  | .ok v => k v
  | .exc code => .next (raise s code)
  | .fault f => .fault f
  | .refused r => .refused r

/-- A load instruction of `len` bytes: `ext` extends the value read (R251). -/
def loadTo (s : State) (len : Word) (w : Width) (rd : Reg) (a : Word) (ext : Word → Word) : Out :=
  (loadMem s w a).elim s fun r => .next ((r.2.setX rd (ext r.1)).retire len)

/-- A store instruction of `len` bytes (R251). -/
def storeFrom (s : State) (len : Word) (w : Width) (a v : Word) : Out :=
  (storeMem s w a v).elim s fun t => .next (t.retire len)

/-- A read as an instruction fetch makes it, at a main-space address (R110, R122). A fetch from a device is not in the
devices' history, for how far fetch runs ahead is open (R116; notes/assumptions/6.md). DESIGN CHOICE: where a location stored
to since FENCE.I is also answered by ERROR, exception 1 is raised; no rule orders R110 and R122 (notes/assumptions/30.md). -/
def fetchMain (s : State) (w : Width) (a : Nat) : Res Word :=
  match response s .fetch a with
  | .error => .exc 1
  | r =>
    if isStale s.stale a w.bytes then .fault .staleFetch
    else if r = .device then .ok (deviceData (toDevice s .fetch w a 0) w)
    else .ok (Memory.read s.mem w a)

/-- The word of a jump table, read as a fetch (44_zcb_zcmp_zcmt.md R370). -/
def fetchTable (s : State) (a : Word) : Res Word :=
  if inTcip a then .refused .tableTcip else fetchMain s .word (mainAddr a)

/-- The word of the vector table (60_exceptions.md R424), and the state after the access: a data read, which must not be
stale. -/
def loadVector (s : State) (a : Word) : Res (Word × State) :=
  if inTcip a then .refused .tableTcip
  else
    match response s .load (mainAddr a) with
    | .error => .refused .vectorTableError
    | r =>
      if isStale s.stale (mainAddr a) 4 then .fault .staleFetch
      else if r = .device then .ok (deviceRead s .word (mainAddr a))
      else .ok (Memory.read s.mem .word (mainAddr a), s)

/-! ## Writing a result -/

/-- The instruction of `len` bytes writes `v` to `rd` and retires. -/
def writeTo (s : State) (len : Word) (rd : Reg) (v : Word) : Out := .next ((s.setX rd v).retire len)

/-- A conditional branch of `len` bytes (40_rv32e_base.md R252). -/
def branchTo (s : State) (len : Word) (taken : Bool) (off : Word) : Out :=
  .next (if taken then s.retireTo (s.pc + off) else s.retire len)

/-- A jump of `len` bytes to `t` that links in `rd` (40_rv32e_base.md R212, R213): the link is pc + len. -/
def jumpLink (s : State) (len : Word) (rd : Reg) (t : Word) : Out :=
  .next ((s.setX rd (s.pc + len)).retireTo t)

/-- An instruction of an option: illegal when the build lacks it (30_encoding.md R166). -/
def gated (present : Bool) (s : State) (k : Out) : Out := if present then k else .next (raiseIllegal s)

end Sys2Proof.Machine
end

