-- ==== Sys2Proof/Machine/Operands.lean ====
section
/-!
DEFINITION. The operand forms: immediates scaled and extended as 30_encoding.md R142 to R159 say.
-/

namespace Sys2Proof.Machine

/-- sext_12 (R144, R146). -/
def sext12 (imm : BitVec 12) : Word := imm.signExtend 32

/-- The branch offset sext_13 of the 12-bit field followed by a 0 bit (R147). -/
def branchOffset (imm : BitVec 12) : Word := (imm ++ (0 : BitVec 1)).signExtend 32

/-- The jump offset sext_21 of the 20-bit field followed by a 0 bit (R149). -/
def jumpOffset (imm : BitVec 20) : Word := (imm ++ (0 : BitVec 1)).signExtend 32

/-- The upper immediate followed by twelve 0 bits (R148). -/
def upperImm (imm : BitVec 20) : Word := imm ++ (0 : BitVec 12)

/-- zext_5 (R150). -/
def zext5 (imm : BitVec 5) : Word := imm.setWidth 32

/-- sext_6 (R157, R158). -/
def sext6 (imm : BitVec 6) : Word := imm.signExtend 32

/-- C.LUI: sext_18 of the six-bit field followed by twelve 0 bits (R157). -/
def cUpperImm (imm : BitVec 6) : Word := (imm ++ (0 : BitVec 12)).signExtend 32

/-- C.J and C.JAL: sext_12 of the 11-bit field followed by a 0 bit (R157). -/
def cJumpOffset (imm : BitVec 11) : Word := (imm ++ (0 : BitVec 1)).signExtend 32

/-- C.BEQZ and C.BNEZ: sext_9 of the 8-bit field followed by a 0 bit (R158). -/
def cBranchOffset (imm : BitVec 8) : Word := (imm ++ (0 : BitVec 1)).signExtend 32

/-- C.ADDI4SPN: zext_10 of the 8-bit field times 4 (R158). -/
def addi4spnOffset (imm : BitVec 8) : Word := (imm ++ (0 : BitVec 2)).setWidth 32

/-- C.ADDI16SP: sext_10 of the 6-bit field times 16 (R158). -/
def addi16spOffset (imm : BitVec 6) : Word := (imm ++ (0 : BitVec 4)).signExtend 32

/-- C.LW and C.SW: zext_7 of the 5-bit field times 4 (R158). -/
def clwOffset (imm : BitVec 5) : Word := (imm ++ (0 : BitVec 2)).setWidth 32

/-- C.LWSP and C.SWSP: zext_8 of the 6-bit field times 4 (R158). -/
def cspOffset (imm : BitVec 6) : Word := (imm ++ (0 : BitVec 2)).setWidth 32

/-- C.LBU and C.SB: zext_2 (R159). -/
def cByteOffset (imm : BitVec 2) : Word := imm.setWidth 32

/-- C.LHU, C.LH and C.SH: 0 or 2 (R159). -/
def cHalfOffset (imm : BitVec 1) : Word := (imm ++ (0 : BitVec 1)).setWidth 32

/-- The effective address of a 32-bit load or store (40_rv32e_base.md R251). -/
def effAddr (s : State) (rs1 : Reg) (imm : BitVec 12) : Word := s.x rs1 + sext12 imm

/-- The stack adjustment of a Zcmp instruction: 16 + 16 * spimm (44_zcb_zcmp_zcmt.md R362). -/
def stackAdj (spimm : BitVec 2) : Word := 16 + 16 * spimm.setWidth 32

/-- The registers of a list in the order they are moved: x9, x8, x1 (R363, R364). -/
def listRegs : RegList → List Reg
  | .ra => [1]
  | .raS0 => [8, 1]
  | .raS0S1 => [9, 8, 1]

/-- sext_8 of the low byte. -/
def sextByte (v : Word) : Word := (v.extractLsb' 0 8).signExtend 32

/-- sext_16 of the low halfword. -/
def sextHalf (v : Word) : Word := (v.extractLsb' 0 16).signExtend 32

/-- zext_8 of the low byte. -/
def zextByte (v : Word) : Word := (v.extractLsb' 0 8).setWidth 32

/-- zext_16 of the low halfword. -/
def zextHalf (v : Word) : Word := (v.extractLsb' 0 16).setWidth 32

/-- The shift amount or bit index in the low five bits of a register (40_rv32e_base.md R227). -/
def shamtOf (v : Word) : Nat := v.toNat % 32

end Sys2Proof.Machine
end

