-- ==== Sys2Proof/Machine/Flags.lean ====
section
/-!
DEFINITION. The E901 has no flags (10_state.md R30): a comparison writes 0 or 1 to a register, or decides a branch.
-/

namespace Sys2Proof.Machine

/-- a <s b (00_scope.md R13). -/
def ltS (a b : Word) : Bool := a.slt b

/-- a <u b (00_scope.md R13). -/
def ltU (a b : Word) : Bool := a.ult b

/-- A comparison as a register value: 1 when it holds, else 0 (40_rv32e_base.md R229). -/
def boolWord (b : Bool) : Word := if b then 1 else 0

end Sys2Proof.Machine
end

