-- ==== Sys2Proof/Machine/Alu.lean ====
section
/-!
DEFINITION. RV32E arithmetic, logic, comparisons, shifts and upper immediates (40_rv32e_base.md R201 to R205, R214, R223 to R237).
-/

namespace Sys2Proof.Machine

/-! ## Register and immediate arithmetic -/

/-- ADD (R201). -/
def execAdd (rd rs1 rs2 : Reg) (s : State) : Out :=
  writeTo s 4 rd (s.x rs1 + s.x rs2)

/-- ADDI (R202). -/
def execAddi (rd rs1 : Reg) (imm : BitVec 12) (s : State) : Out :=
  writeTo s 4 rd (s.x rs1 + sext12 imm)

/-- SUB (R237). -/
def execSub (rd rs1 rs2 : Reg) (s : State) : Out :=
  writeTo s 4 rd (s.x rs1 - s.x rs2)

/-- AND (R203). -/
def execAnd (rd rs1 rs2 : Reg) (s : State) : Out :=
  writeTo s 4 rd (s.x rs1 &&& s.x rs2)

/-- ANDI (R204). -/
def execAndi (rd rs1 : Reg) (imm : BitVec 12) (s : State) : Out :=
  writeTo s 4 rd (s.x rs1 &&& sext12 imm)

/-- OR (R223). -/
def execOr (rd rs1 rs2 : Reg) (s : State) : Out :=
  writeTo s 4 rd (s.x rs1 ||| s.x rs2)

/-- ORI (R224). -/
def execOri (rd rs1 : Reg) (imm : BitVec 12) (s : State) : Out :=
  writeTo s 4 rd (s.x rs1 ||| sext12 imm)

/-- XOR (R225). -/
def execXor (rd rs1 rs2 : Reg) (s : State) : Out :=
  writeTo s 4 rd (s.x rs1 ^^^ s.x rs2)

/-- XORI (R226, 90 C2). -/
def execXori (rd rs1 : Reg) (imm : BitVec 12) (s : State) : Out :=
  writeTo s 4 rd (s.x rs1 ^^^ sext12 imm)

/-- SLT (R229). -/
def execSlt (rd rs1 rs2 : Reg) (s : State) : Out :=
  writeTo s 4 rd (boolWord (ltS (s.x rs1) (s.x rs2)))

/-- SLTI (R230). -/
def execSlti (rd rs1 : Reg) (imm : BitVec 12) (s : State) : Out :=
  writeTo s 4 rd (boolWord (ltS (s.x rs1) (sext12 imm)))

/-- SLTIU: the immediate is sign-extended, the comparison unsigned (R231). -/
def execSltiu (rd rs1 : Reg) (imm : BitVec 12) (s : State) : Out :=
  writeTo s 4 rd (boolWord (ltU (s.x rs1) (sext12 imm)))

/-- SLTU (R232). -/
def execSltu (rd rs1 rs2 : Reg) (s : State) : Out :=
  writeTo s 4 rd (boolWord (ltU (s.x rs1) (s.x rs2)))

/-! ## Shifts -/

/-- SLL (R227). -/
def execSll (rd rs1 rs2 : Reg) (s : State) : Out :=
  writeTo s 4 rd (s.x rs1 <<< shamtOf (s.x rs2))

/-- SLLI (R228). -/
def execSlli (rd rs1 : Reg) (shamt : BitVec 5) (s : State) : Out :=
  writeTo s 4 rd (s.x rs1 <<< shamt.toNat)

/-- SRL (R235). -/
def execSrl (rd rs1 rs2 : Reg) (s : State) : Out :=
  writeTo s 4 rd (s.x rs1 >>> shamtOf (s.x rs2))

/-- SRLI (R236). -/
def execSrli (rd rs1 : Reg) (shamt : BitVec 5) (s : State) : Out :=
  writeTo s 4 rd (s.x rs1 >>> shamt.toNat)

/-- SRA (R233). -/
def execSra (rd rs1 rs2 : Reg) (s : State) : Out :=
  writeTo s 4 rd ((s.x rs1).sshiftRight (shamtOf (s.x rs2)))

/-- SRAI (R234). -/
def execSrai (rd rs1 : Reg) (shamt : BitVec 5) (s : State) : Out :=
  writeTo s 4 rd ((s.x rs1).sshiftRight shamt.toNat)

/-! ## Upper immediates -/

/-- LUI (R214). -/
def execLui (rd : Reg) (imm : BitVec 20) (s : State) : Out := writeTo s 4 rd (upperImm imm)

/-- AUIPC: the pc is the address of the AUIPC (R205). -/
def execAuipc (rd : Reg) (imm : BitVec 20) (s : State) : Out := writeTo s 4 rd (s.pc + upperImm imm)

end Sys2Proof.Machine
end

