-- ==== Sys2Proof/Machine/BitManip.lean ====
section
/-!
DEFINITION. The B extension: Zba, Zbb, Zbs (42_b_extension.md R270 to R299); illegal in a build without it (R270).
-/

namespace Sys2Proof.Machine

/-- The number of 0 bits of `v` from bit `n - 1` downward (R277). -/
def leadingZeros (v : Word) : Nat → Nat
  | 0 => 0
  | n + 1 => if v.getLsbD n then 0 else leadingZeros v n + 1

/-- The number of 0 bits of `v` from bit `k` upward, of the `n` bits there (R278). -/
def trailingZeros (v : Word) (k : Nat) : Nat → Nat
  | 0 => 0
  | n + 1 => if v.getLsbD k then 0 else trailingZeros v (k + 1) n + 1

/-- The number of 1 bits of `v` below bit `n` (R279). -/
def countOnes (v : Word) : Nat → Nat
  | 0 => 0
  | n + 1 => (v.getLsbD n).toNat + countOnes v n

/-- Byte `k` of a word. -/
def byteAt (v : Word) (k : Nat) : Byte := v.extractLsb' (8 * k) 8

/-- A byte of ORC.B: 0 for 0, else 0xFF (R290). -/
def orcByte (b : Byte) : Byte := if b = 0 then 0x00 else 0xFF

/-- The word with only bit `i` set. -/
def bitMask (i : Nat) : Word := 1#32 <<< i

/-- Rotation to the left (R287). -/
def rotl (v : Word) (n : Nat) : Word := (v <<< n) ||| (v >>> ((32 - n) % 32))

/-- Rotation to the right (R288). -/
def rotr (v : Word) (n : Nat) : Word := (v >>> n) ||| (v <<< ((32 - n) % 32))

/-! ## Zba -/

/-- SH1ADD (R271). -/
def execSh1add (rd rs1 rs2 : Reg) (s : State) : Out :=
  gated s.cfg.hasB s (writeTo s 4 rd ((s.x rs1 <<< 1) + s.x rs2))

/-- SH2ADD (R272). -/
def execSh2add (rd rs1 rs2 : Reg) (s : State) : Out :=
  gated s.cfg.hasB s (writeTo s 4 rd ((s.x rs1 <<< 2) + s.x rs2))

/-- SH3ADD (R273). -/
def execSh3add (rd rs1 rs2 : Reg) (s : State) : Out :=
  gated s.cfg.hasB s (writeTo s 4 rd ((s.x rs1 <<< 3) + s.x rs2))

/-! ## Zbb -/

/-- ANDN (R274). -/
def execAndn (rd rs1 rs2 : Reg) (s : State) : Out :=
  gated s.cfg.hasB s (writeTo s 4 rd (s.x rs1 &&& ~~~(s.x rs2)))

/-- ORN (R275). -/
def execOrn (rd rs1 rs2 : Reg) (s : State) : Out :=
  gated s.cfg.hasB s (writeTo s 4 rd (s.x rs1 ||| ~~~(s.x rs2)))

/-- XNOR (R276). -/
def execXnor (rd rs1 rs2 : Reg) (s : State) : Out :=
  gated s.cfg.hasB s (writeTo s 4 rd (~~~(s.x rs1 ^^^ s.x rs2)))

/-- CLZ (R277). -/
def execClz (rd rs1 : Reg) (s : State) : Out :=
  gated s.cfg.hasB s (writeTo s 4 rd (BitVec.ofNat 32 (leadingZeros (s.x rs1) 32)))

/-- CTZ (R278). -/
def execCtz (rd rs1 : Reg) (s : State) : Out :=
  gated s.cfg.hasB s (writeTo s 4 rd (BitVec.ofNat 32 (trailingZeros (s.x rs1) 0 32)))

/-- CPOP (R279). -/
def execCpop (rd rs1 : Reg) (s : State) : Out :=
  gated s.cfg.hasB s (writeTo s 4 rd (BitVec.ofNat 32 (countOnes (s.x rs1) 32)))

/-- MAX (R280). -/
def execMax (rd rs1 rs2 : Reg) (s : State) : Out :=
  gated s.cfg.hasB s (writeTo s 4 rd (if ltS (s.x rs1) (s.x rs2) then s.x rs2 else s.x rs1))

/-- MAXU (R281). -/
def execMaxu (rd rs1 rs2 : Reg) (s : State) : Out :=
  gated s.cfg.hasB s (writeTo s 4 rd (if ltU (s.x rs1) (s.x rs2) then s.x rs2 else s.x rs1))

/-- MIN (R282). -/
def execMin (rd rs1 rs2 : Reg) (s : State) : Out :=
  gated s.cfg.hasB s (writeTo s 4 rd (if ltS (s.x rs1) (s.x rs2) then s.x rs1 else s.x rs2))

/-- MINU (R283). -/
def execMinu (rd rs1 rs2 : Reg) (s : State) : Out :=
  gated s.cfg.hasB s (writeTo s 4 rd (if ltU (s.x rs1) (s.x rs2) then s.x rs1 else s.x rs2))

/-- SEXT.B (R284). -/
def execSextB (rd rs1 : Reg) (s : State) : Out :=
  gated s.cfg.hasB s (writeTo s 4 rd (sextByte (s.x rs1)))

/-- SEXT.H (R285). -/
def execSextH (rd rs1 : Reg) (s : State) : Out :=
  gated s.cfg.hasB s (writeTo s 4 rd (sextHalf (s.x rs1)))

/-- ZEXT.H (R286). -/
def execZextH (rd rs1 : Reg) (s : State) : Out :=
  gated s.cfg.hasB s (writeTo s 4 rd (zextHalf (s.x rs1)))

/-- ROL (R287). -/
def execRol (rd rs1 rs2 : Reg) (s : State) : Out :=
  gated s.cfg.hasB s (writeTo s 4 rd (rotl (s.x rs1) (shamtOf (s.x rs2))))

/-- ROR (R288). -/
def execRor (rd rs1 rs2 : Reg) (s : State) : Out :=
  gated s.cfg.hasB s (writeTo s 4 rd (rotr (s.x rs1) (shamtOf (s.x rs2))))

/-- RORI (R289). -/
def execRori (rd rs1 : Reg) (shamt : BitVec 5) (s : State) : Out :=
  gated s.cfg.hasB s (writeTo s 4 rd (rotr (s.x rs1) shamt.toNat))

/-- ORC.B (R290). -/
def execOrcB (rd rs1 : Reg) (s : State) : Out :=
  gated s.cfg.hasB s (writeTo s 4 rd (orcByte (byteAt (s.x rs1) 3) ++ orcByte (byteAt (s.x rs1) 2) ++ orcByte (byteAt (s.x rs1) 1)
    ++ orcByte (byteAt (s.x rs1) 0)))

/-- REV8 (R291). -/
def execRev8 (rd rs1 : Reg) (s : State) : Out :=
  gated s.cfg.hasB s (writeTo s 4 rd (byteAt (s.x rs1) 0 ++ byteAt (s.x rs1) 1 ++ byteAt (s.x rs1) 2 ++ byteAt (s.x rs1) 3))

/-! ## Zbs -/

/-- BCLR (R292). -/
def execBclr (rd rs1 rs2 : Reg) (s : State) : Out :=
  gated s.cfg.hasB s (writeTo s 4 rd (s.x rs1 &&& ~~~(bitMask (shamtOf (s.x rs2)))))

/-- BCLRI (R293). -/
def execBclri (rd rs1 : Reg) (shamt : BitVec 5) (s : State) : Out :=
  gated s.cfg.hasB s (writeTo s 4 rd (s.x rs1 &&& ~~~(bitMask shamt.toNat)))

/-- BEXT (R294). -/
def execBext (rd rs1 rs2 : Reg) (s : State) : Out :=
  gated s.cfg.hasB s (writeTo s 4 rd (boolWord ((s.x rs1).getLsbD (shamtOf (s.x rs2)))))

/-- BEXTI (R295). -/
def execBexti (rd rs1 : Reg) (shamt : BitVec 5) (s : State) : Out :=
  gated s.cfg.hasB s (writeTo s 4 rd (boolWord ((s.x rs1).getLsbD shamt.toNat)))

/-- BINV (R296). -/
def execBinv (rd rs1 rs2 : Reg) (s : State) : Out :=
  gated s.cfg.hasB s (writeTo s 4 rd (s.x rs1 ^^^ bitMask (shamtOf (s.x rs2))))

/-- BINVI (R297). -/
def execBinvi (rd rs1 : Reg) (shamt : BitVec 5) (s : State) : Out :=
  gated s.cfg.hasB s (writeTo s 4 rd (s.x rs1 ^^^ bitMask shamt.toNat))

/-- BSET (R298). -/
def execBset (rd rs1 rs2 : Reg) (s : State) : Out :=
  gated s.cfg.hasB s (writeTo s 4 rd (s.x rs1 ||| bitMask (shamtOf (s.x rs2))))

/-- BSETI (R299). -/
def execBseti (rd rs1 : Reg) (shamt : BitVec 5) (s : State) : Out :=
  gated s.cfg.hasB s (writeTo s 4 rd (s.x rs1 ||| bitMask shamt.toNat))

end Sys2Proof.Machine
end

