-- ==== Sys2Proof/Machine/Branch.lean ====
section
/-!
DEFINITION. RV32E control transfer (40_rv32e_base.md R206 to R213, R252).
-/

namespace Sys2Proof.Machine

/-- BEQ (R206). -/
def execBeq (rs1 rs2 : Reg) (imm : BitVec 12) (s : State) : Out :=
  branchTo s 4 (s.x rs1 == s.x rs2) (branchOffset imm)

/-- BNE (R211). -/
def execBne (rs1 rs2 : Reg) (imm : BitVec 12) (s : State) : Out :=
  branchTo s 4 (s.x rs1 != s.x rs2) (branchOffset imm)

/-- BLT (R209). -/
def execBlt (rs1 rs2 : Reg) (imm : BitVec 12) (s : State) : Out :=
  branchTo s 4 (ltS (s.x rs1) (s.x rs2)) (branchOffset imm)

/-- BGE (R207). -/
def execBge (rs1 rs2 : Reg) (imm : BitVec 12) (s : State) : Out :=
  branchTo s 4 (!ltS (s.x rs1) (s.x rs2)) (branchOffset imm)

/-- BLTU (R210). -/
def execBltu (rs1 rs2 : Reg) (imm : BitVec 12) (s : State) : Out :=
  branchTo s 4 (ltU (s.x rs1) (s.x rs2)) (branchOffset imm)

/-- BGEU (R208). -/
def execBgeu (rs1 rs2 : Reg) (imm : BitVec 12) (s : State) : Out :=
  branchTo s 4 (!ltU (s.x rs1) (s.x rs2)) (branchOffset imm)

/-- JAL (R212). -/
def execJal (rd : Reg) (imm : BitVec 20) (s : State) : Out := jumpLink s 4 rd (s.pc + jumpOffset imm)

/-- JALR: the target uses the old rs1, with bit 0 cleared (R213, 90 C4). -/
def execJalr (rd rs1 : Reg) (imm : BitVec 12) (s : State) : Out := jumpLink s 4 rd (clearBit0 (s.x rs1 + sext12 imm))

end Sys2Proof.Machine
end

