-- ==== Sys2Proof/Machine/Compressed.lean ====
section
/-!
DEFINITION. Zca (43_zca.md R310 to R337).
-/

namespace Sys2Proof.Machine

/-! ## Arithmetic, logic, shifts, data transfer -/

/-- C.ADD (R311). -/
def execCAdd (rd rs2 : Reg) (s : State) : Out :=
  writeTo s 2 rd (s.x rd + s.x rs2)

/-- C.ADDI (R312). -/
def execCAddi (rd : Reg) (imm : BitVec 6) (s : State) : Out :=
  writeTo s 2 rd (s.x rd + sext6 imm)

/-- C.ADDI4SPN (R313, 90 C31). -/
def execCAddi4spn (rd : CReg) (imm : BitVec 8) (s : State) : Out :=
  writeTo s 2 (creg rd) (s.x spReg + addi4spnOffset imm)

/-- C.ADDI16SP (R314). -/
def execCAddi16sp (imm : BitVec 6) (s : State) : Out :=
  writeTo s 2 spReg (s.x spReg + addi16spOffset imm)

/-- C.SUB (R336). -/
def execCSub (rd rs2 : CReg) (s : State) : Out :=
  writeTo s 2 (creg rd) (s.x (creg rd) - s.x (creg rs2))

/-- C.AND (R315). -/
def execCAnd (rd rs2 : CReg) (s : State) : Out :=
  writeTo s 2 (creg rd) (s.x (creg rd) &&& s.x (creg rs2))

/-- C.ANDI (R316). -/
def execCAndi (rd : CReg) (imm : BitVec 6) (s : State) : Out :=
  writeTo s 2 (creg rd) (s.x (creg rd) &&& sext6 imm)

/-- C.OR (R330). -/
def execCOr (rd rs2 : CReg) (s : State) : Out :=
  writeTo s 2 (creg rd) (s.x (creg rd) ||| s.x (creg rs2))

/-- C.XOR (R337). -/
def execCXor (rd rs2 : CReg) (s : State) : Out :=
  writeTo s 2 (creg rd) (s.x (creg rd) ^^^ s.x (creg rs2))

/-- C.SLLI (R331). -/
def execCSlli (rd : Reg) (shamt : BitVec 5) (s : State) : Out :=
  writeTo s 2 rd (s.x rd <<< shamt.toNat)

/-- C.SRLI (R333). -/
def execCSrli (rd : CReg) (shamt : BitVec 5) (s : State) : Out :=
  writeTo s 2 (creg rd) (s.x (creg rd) >>> shamt.toNat)

/-- C.SRAI (R332). -/
def execCSrai (rd : CReg) (shamt : BitVec 5) (s : State) : Out :=
  writeTo s 2 (creg rd) ((s.x (creg rd)).sshiftRight shamt.toNat)

/-- C.MV (R328). -/
def execCMv (rd rs2 : Reg) (s : State) : Out :=
  writeTo s 2 rd (s.x rs2)

/-- C.LI (R324). -/
def execCLi (rd : Reg) (imm : BitVec 6) (s : State) : Out :=
  writeTo s 2 rd (sext6 imm)

/-- C.LUI (R325). -/
def execCLui (rd : Reg) (imm : BitVec 6) (s : State) : Out :=
  writeTo s 2 rd (cUpperImm imm)

/-- C.NOP (R329). -/
def execCNop (s : State) : Out :=
  .next (s.retire 2)

/-! ## Control transfer -/

/-- C.J (R320). -/
def execCJ (imm : BitVec 11) (s : State) : Out :=
  .next (s.retireTo (s.pc + cJumpOffset imm))

/-- C.JAL: the link is pc + 2 (R321). -/
def execCJal (imm : BitVec 11) (s : State) : Out :=
  jumpLink s 2 raReg (s.pc + cJumpOffset imm)

/-- C.JR (R323, 90 C34). -/
def execCJr (rs1 : Reg) (s : State) : Out :=
  .next (s.retireTo (clearBit0 (s.x rs1)))

/-- C.JALR: the link is pc + 2 (R322, 90 C34). -/
def execCJalr (rs1 : Reg) (s : State) : Out :=
  jumpLink s 2 raReg (clearBit0 (s.x rs1))

/-- C.BEQZ (R317). -/
def execCBeqz (rs1 : CReg) (imm : BitVec 8) (s : State) : Out :=
  branchTo s 2 (s.x (creg rs1) == 0) (cBranchOffset imm)

/-- C.BNEZ (R318). -/
def execCBnez (rs1 : CReg) (imm : BitVec 8) (s : State) : Out :=
  branchTo s 2 (s.x (creg rs1) != 0) (cBranchOffset imm)

/-- C.EBREAK: as EBREAK (R319). -/
def execCEbreak (s : State) : Out :=
  .next (breakpointInstruction s)

/-! ## Loads and stores -/

/-- C.LW (R326). -/
def execCLw (rd rs1 : CReg) (imm : BitVec 5) (s : State) : Out :=
  loadTo s 2 .word (creg rd) (s.x (creg rs1) + clwOffset imm) id

/-- C.LWSP (R327). -/
def execCLwsp (rd : Reg) (imm : BitVec 6) (s : State) : Out :=
  loadTo s 2 .word rd (s.x spReg + cspOffset imm) id

/-- C.SW (R334). -/
def execCSw (rs2 rs1 : CReg) (imm : BitVec 5) (s : State) : Out :=
  storeFrom s 2 .word (s.x (creg rs1) + clwOffset imm) (s.x (creg rs2))

/-- C.SWSP (R335). -/
def execCSwsp (rs2 : Reg) (imm : BitVec 6) (s : State) : Out :=
  storeFrom s 2 .word (s.x spReg + cspOffset imm) (s.x rs2)

end Sys2Proof.Machine
end

