-- ==== Sys2Proof/Machine/Coproc.lean ====
section
/-!
DEFINITION. The coprocessor instructions (45_coprocessor.md R380 to R395).
-/

namespace Sys2Proof.Machine

/-- The interface exists and mxstatus.COPINSTEE = 1 (R382). -/
def copEnabled (s : State) : Bool := s.cfg.hasCop && s.csr.copEn

/-- The request an instruction sends: its coprocessor, its whole word, its source values (R383 (4)). -/
def copReq (i : Instr) (index : BitVec 2) (srcs : List Word) : CopReq :=
  { index := index, word := BitVec.ofNat 32 (encode i), srcs := srcs }

/-- A request without write-back (R383, R386). -/
def copSend (s : State) (q : CopReq) : Out :=
  gated (copEnabled s) s (.next ({ s with cop := q :: s.cop }.retire 4))

/-- A request whose answer is written to `rd` (R383 (6), R388): the answer is a free value of the whole history
(notes/assumptions/36.md). -/
def copCall (s : State) (rd : Reg) (q : CopReq) : Out :=
  gated (copEnabled s) s (writeTo { s with cop := q :: s.cop } 4 rd (Config.copResult (q :: s.cop)))

/-- cpx0 (R386). -/
def execCpx0 (index : BitVec 2) (rs1 : Reg) (uimm : BitVec 10) (s : State) : Out :=
  copSend s (copReq (.cpx0 index rs1 uimm) index [s.x rs1])

/-- cpx1 (R387). -/
def execCpx1 (index : BitVec 2) (rs1 : Reg) (s : State) : Out :=
  copSend s (copReq (.cpx1 index rs1) index [s.x rs1])

/-- cpx2 (R388). -/
def execCpx2 (index : BitVec 2) (rd rs1 : Reg) (uimm : BitVec 5) (s : State) : Out :=
  copCall s rd (copReq (.cpx2 index rd rs1 uimm) index [s.x rs1])

/-- cpx3 (R389). -/
def execCpx3 (index : BitVec 2) (rd rs1 : Reg) (s : State) : Out :=
  copCall s rd (copReq (.cpx3 index rd rs1) index [s.x rs1])

/-- cpx4 (R390). -/
def execCpx4 (index : BitVec 2) (rs1 rs2 : Reg) (uimm : BitVec 5) (s : State) : Out :=
  copSend s (copReq (.cpx4 index rs1 rs2 uimm) index [s.x rs1, s.x rs2])

/-- cpx5 (R391). -/
def execCpx5 (index : BitVec 2) (rs1 rs2 : Reg) (s : State) : Out :=
  copSend s (copReq (.cpx5 index rs1 rs2) index [s.x rs1, s.x rs2])

/-- cpx6 (R392). -/
def execCpx6 (index : BitVec 2) (rd rs1 rs2 : Reg) (s : State) : Out :=
  copCall s rd (copReq (.cpx6 index rd rs1 rs2) index [s.x rs1, s.x rs2])

/-- cpx9: rd is a source too (R393). -/
def execCpx9 (index : BitVec 2) (rd rs1 : Reg) (uimm : BitVec 10) (s : State) : Out :=
  copCall s rd (copReq (.cpx9 index rd rs1 uimm) index [s.x rs1, s.x rd])

end Sys2Proof.Machine
end

