-- ==== Sys2Proof/Machine/Csr.lean ====
section
/-!
DEFINITION. The CSRs (10_state.md R32 to R69): numbers, read values, write effects, and the six CSR instructions
(40_rv32e_base.md R240 to R246).
-/

namespace Sys2Proof.Machine

/-- The CSR with a number, of those the E901 implements (R32). -/
def csrOf (n : BitVec 12) : Option CsrName :=
  match n.toNat with
  | 0x017 => some .jvt
  | 0x300 => some .mstatus
  | 0x301 => some .misa
  | 0x305 => some .mtvec
  | 0x306 => some .mcounteren
  | 0x307 => some .mtvt
  | 0x320 => some .mcountinhibit
  | 0x340 => some .mscratch
  | 0x341 => some .mepc
  | 0x342 => some .mcause
  | 0x344 => some .mip
  | 0x349 => some .mscratchcswl
  | 0x350 => some .mclicbase
  | 0x7A0 => some .tselect
  | 0x7A1 => some .tdata1
  | 0x7A2 => some .tdata2
  | 0x7A3 => some .tdata3
  | 0x7A4 => some .tinfo
  | 0x7A5 => some .tcontrol
  | 0x7A8 => some .mcontext
  | 0x7B0 => some .dcsr
  | 0x7B1 => some .dpc
  | 0x7B2 => some .dscratch0
  | 0x7B3 => some .dscratch1
  | 0x7C0 => some .mxstatus
  | 0x7C1 => some .mhcr
  | 0x7E0 => some .mraddr
  | 0x7E1 => some .mexstatus
  | 0xB00 => some .mcycle
  | 0xB02 => some .minstret
  | 0xF11 => some .mvendorid
  | 0xF12 => some .marchid
  | 0xF13 => some .mimpid
  | 0xF14 => some .mhartid
  | 0xFC0 => some .mcpuid
  | 0xFE0 => some .mhaltcause
  | 0xFE1 => some .mdbginfo
  | 0xFE2 => some .mpcfifo
  | _ => none

/-- A bit placed at a position. -/
def bitAt (b : Bool) (k : Nat) : Word := boolWord b <<< k

/-- The two bits of `v` whose lower one is bit `k`. -/
def twoAt (v : Word) (k : Nat) : BitVec 2 := v.extractLsb' k 2

/-- mstatus: 0x1800 with MPIE and MIE placed (R36). -/
def mstatusValue (s : State) : Word := 0x1800 ||| bitAt s.csr.mpie 7 ||| bitAt s.csr.mie 3

/-- misa: the bits the field text fixes, the others a free value (R37). -/
def misaValue (s : State) : Word :=
  (Config.misaOther &&& 0x3FEFFFE9) ||| 0x40000014 ||| bitAt s.cfg.hasB 1

/-- mcause (R44): MPP reads 3, MPIE mirrors mstatus.MPIE. -/
def mcauseValue (s : State) : Word :=
  bitAt s.csr.causeInt 31 ||| bitAt s.csr.minhv 30 ||| 0x30000000 ||| bitAt s.csr.mpie 27
    ||| s.csr.causeCode.setWidth 32

/-- mcountinhibit (R47). -/
def mcountinhibitValue (s : State) : Word := bitAt s.ctr.mir 2 ||| bitAt s.ctr.mcy 0

/-- mxstatus (R50), by the layout: COPINSTEE, PM = 3, the other bits as the layout says. -/
def mxstatusValue (s : State) : Word :=
  (s.cfg.mxstatus.other &&& ~~~((1#32 <<< s.cfg.mxstatus.copBit) ||| (3#32 <<< s.cfg.mxstatus.pmLow)))
    ||| bitAt s.csr.copEn s.cfg.mxstatus.copBit ||| (3#32 <<< s.cfg.mxstatus.pmLow)

/-- mexstatus (R53), by the layout. -/
def mexstatusValue (s : State) : Word :=
  (s.csr.softRst.setWidth 32 <<< s.cfg.mexstatus.softRst) ||| (s.csr.lpmd.setWidth 32 <<< s.cfg.mexstatus.lpmd)
    ||| bitAt s.csr.wfe s.cfg.mexstatus.wfe ||| bitAt s.csr.exptVld s.cfg.mexstatus.exptVld
    ||| bitAt s.csr.lockup s.cfg.mexstatus.lockup

/-- The selected trigger (R56). -/
def selected (s : State) : Trigger := (s.dbg.triggers[s.dbg.tselect]?).getD (resetTrigger .mcontrol)

/-- tdata1 (R57): TYPE, DMODE, DATA. -/
def tdata1Value (t : Trigger) : Word := t.type ++ (if t.dmode then (1 : BitVec 1) else 0) ++ t.data

/-- tdata3 (R59): MVALUE, MSELECT, zeros. -/
def tdata3Value (t : Trigger) : Word := t.mvalue ++ (if t.mselect then (1 : BitVec 1) else 0) ++ (0 : BitVec 25)

/-- tinfo (R60). -/
def tinfoValue (t : Trigger) : Word :=
  match t.kind with
  | .mcontrol => 0x0004
  | .configurable => 0x0038

/-- dcsr (R63): XDEBUGVER = 4, STOPTIME = 0, PRV = 3. -/
def dcsrValue (s : State) : Word :=
  0x40000000 ||| bitAt s.dbg.ebreakm 15 ||| bitAt s.dbg.stepie 11 ||| bitAt s.dbg.stopcount 10
    ||| (s.dbg.cause.setWidth 32 <<< 6) ||| bitAt s.dbg.mprven 4 ||| bitAt s.dbg.step 2 ||| 3

/-- The value a CSR reads (R33 to R68). -/
def csrRead (s : State) : CsrName → Word
  | .jvt => s.csr.jvtBase ++ (0 : BitVec 6)
  | .mstatus => mstatusValue s
  | .misa => misaValue s
  | .mtvec => s.csr.mtvecBase ++ (3 : BitVec 6)
  | .mcounteren => 0
  | .mtvt => s.csr.mtvtBase ++ (0 : BitVec 6)
  | .mcountinhibit => mcountinhibitValue s
  | .mscratch => s.csr.mscratch
  | .mepc => s.csr.mepc
  | .mcause => mcauseValue s
  | .mip => s.csr.mip
  | .mscratchcswl => s.csr.mscratch
  | .mclicbase => 0xE0800000
  | .tselect => BitVec.ofNat 32 s.dbg.tselect
  | .tdata1 => tdata1Value (selected s)
  | .tdata2 => (selected s).tdata2
  | .tdata3 => tdata3Value (selected s)
  | .tinfo => tinfoValue (selected s)
  | .tcontrol => bitAt s.dbg.mpte 7 ||| bitAt s.dbg.mte 3
  | .mcontext => s.dbg.mcontext.setWidth 32
  | .dcsr => dcsrValue s
  | .dpc => s.dbg.dpc
  | .dscratch0 => s.dbg.dscratch0
  | .dscratch1 => s.dbg.dscratch1
  | .mxstatus => mxstatusValue s
  | .mhcr => s.csr.mhcr
  | .mraddr => s.cfg.resetAddr.setWidth 32
  | .mexstatus => mexstatusValue s
  | .mcycle => s.ctr.mcycle
  | .minstret => s.ctr.minstret
  | .mvendorid => 0x000005B7
  | .marchid => 0
  | .mimpid => 0
  | .mhartid => s.cfg.hartidLow.setWidth 32
  | .mcpuid => s.cfg.mcpuid
  | .mhaltcause => s.dbg.mhaltcause
  | .mdbginfo => s.dbg.mdbginfo
  | .mpcfifo => s.dbg.mpcfifo

/-- The state with its machine CSR fields replaced. -/
def withCsr (s : State) (c : Csrs) : State := { s with csr := c }

/-- The state with its debug unit replaced. -/
def withDbg (s : State) (d : DebugUnit) : State := { s with dbg := d }

/-- The state with its counters replaced. -/
def withCtr (s : State) (c : Counters) : State := { s with ctr := c }

/-- The selected trigger replaced. -/
def setTrigger (s : State) (t : Trigger) : State :=
  withDbg s { s.dbg with triggers := s.dbg.triggers.set s.dbg.tselect t }

/-- tdata1.TYPE after a write (R57): hardwired 2, or 3, 4 or 5. -/
def typeAfter (s : State) (t : Trigger) (v : BitVec 4) : BitVec 4 :=
  match t.kind with
  | .mcontrol => 2
  | .configurable =>
    if v = 3 ∨ v = 4 ∨ v = 5 then v else BitVec.ofNat 4 (3 + (Config.tdata1Type s.tick v).val)

/-- tselect after a write (R56; notes/assumptions/39.md). -/
def tselectAfter (s : State) (v : Word) : Nat :=
  if v.toNat < s.dbg.triggers.length then v.toNat
  else Config.tselectOther s.tick v % s.dbg.triggers.length

/-- mexstatus after a write (R53): LPMD ignores 2'b10 and 2'b11, EXPT_VLD is writable in debug mode only. -/
def mexstatusAfter (s : State) (v : Word) : Csrs :=
  let l := s.cfg.mexstatus
  { s.csr with
    softRst := if twoAt v l.softRst = 3 then Config.softRstAfter11 s.csr.softRst else twoAt v l.softRst
    lpmd := if twoAt v l.lpmd = 0 ∨ twoAt v l.lpmd = 1 then twoAt v l.lpmd else s.csr.lpmd
    wfe := v.getLsbD l.wfe
    exptVld := if s.dbg.debugMode then v.getLsbD l.exptVld else s.csr.exptVld }

/-- mcause after a write (R44): bit 8 and the MPIE mirror are open (notes/assumptions/15.md, 16.md). -/
def mcauseAfter (s : State) (v : Word) : Csrs :=
  { s.csr with
    causeInt := v.getLsbD 31
    minhv := v.getLsbD 30
    mpie :=
      if v.getLsbD 27 = s.csr.mpie then s.csr.mpie
      else if Config.mcauseMpieWrites then v.getLsbD 27 else s.csr.mpie
    causeCode := (if v.getLsbD 8 && Config.mcauseBit8Held then (1 : BitVec 1) else 0) ++ v.extractLsb' 0 8 }

/-- What a write that is carried out leaves (R33 to R68): hardwired and read-only fields keep their value. -/
def csrWrite (s : State) (c : CsrName) (v : Word) : State :=
  match c with
  | .jvt => withCsr s { s.csr with jvtBase := if s.cfg.vecFixed then s.csr.jvtBase else v.extractLsb' 6 26 }
  | .mstatus => withCsr s { s.csr with mie := v.getLsbD 3, mpie := v.getLsbD 7 }
  | .mtvec => withCsr s { s.csr with mtvecBase := if s.cfg.vecFixed then s.csr.mtvecBase else v.extractLsb' 6 26 }
  | .mtvt => withCsr s { s.csr with mtvtBase := if s.cfg.vecFixed then s.csr.mtvtBase else v.extractLsb' 6 26 }
  | .mcountinhibit => withCtr s { s.ctr with mcy := v.getLsbD 0, mir := v.getLsbD 2 }
  | .mscratch => withCsr s { s.csr with mscratch := v }
  | .mscratchcswl => withCsr s { s.csr with mscratch := v }
  | .mepc => withCsr s { s.csr with mepc := normPc (clearBit0 v) }
  | .mcause => withCsr s (mcauseAfter s v)
  | .tselect => withDbg s { s.dbg with tselect := tselectAfter s v }
  | .tdata1 =>
    setTrigger s
      { selected s with
        type := typeAfter s (selected s) (v.extractLsb' 28 4)
        dmode := v.getLsbD 27
        data := v.extractLsb' 0 27 }
  | .tdata2 => setTrigger s { selected s with tdata2 := v }
  | .tdata3 => setTrigger s { selected s with mvalue := v.extractLsb' 26 6, mselect := v.getLsbD 25 }
  | .tcontrol => withDbg s { s.dbg with mte := v.getLsbD 3, mpte := v.getLsbD 7 }
  | .mcontext => withDbg s { s.dbg with mcontext := v.extractLsb' 0 6 }
  | .dcsr =>
    withDbg s
      { s.dbg with
        ebreakm := v.getLsbD 15
        stepie := v.getLsbD 11
        stopcount := v.getLsbD 10
        mprven := v.getLsbD 4
        step := v.getLsbD 2 }
  | .dpc => withDbg s { s.dbg with dpc := v }
  | .dscratch0 => withDbg s { s.dbg with dscratch0 := v }
  | .dscratch1 => withDbg s { s.dbg with dscratch1 := v }
  | .mxstatus => withCsr s { s.csr with copEn := v.getLsbD s.cfg.mxstatus.copBit }
  | .mexstatus => withCsr s (mexstatusAfter s v)
  | .mcycle => withCtr s { s.ctr with mcycle := v }
  | .minstret => withCtr s { s.ctr with minstret := v }
  | .mhaltcause =>
    withDbg s { s.dbg with mhaltcause := Config.mhaltcauseHigh (v.extractLsb' 4 28) ++ v.extractLsb' 0 4 }
  | .misa | .mcounteren | .mip | .mclicbase | .tinfo | .mhcr | .mraddr | .mvendorid | .marchid | .mimpid | .mhartid
  | .mcpuid | .mdbginfo | .mpcfifo => s

/-- What an access by a CSR instruction meets (R35). -/
inductive CsrAccess
  /-- It is carried out. -/
  | ok (c : CsrName)
  /-- It reads; its write has no effect. -/
  | readOnly (c : CsrName)
  | illegal
  | refused (r : Refusal)
  deriving DecidableEq, Repr

/-- A read-only CSR whose write R35 (e) leaves open: illegal instruction, or ignored. -/
def openReadOnly (n : BitVec 12) (c : CsrName) (write : Bool) : CsrAccess :=
  if !write then .ok c else if Config.roCsrWriteTraps n then .illegal else .readOnly c

/-- A trigger or debug CSR that machine mode may access (R32, 91 N31). -/
def debugCsr (s : State) (c : CsrName) : CsrAccess := if s.hasDebug then .ok c else .refused .debugCsrAbsent

/-- A data register of the selected trigger: only debug mode may write it when DMODE = 1 (R57). -/
def triggerCsr (s : State) (c : CsrName) (write : Bool) : CsrAccess :=
  if !s.hasDebug then .refused .debugCsrAbsent
  else if write && (selected s).dmode && !s.dbg.debugMode then (if Config.dmodeWriteTraps then .illegal else .readOnly c)
  else .ok c

/-- A CSR a machine-mode write of which raises illegal instruction. -/
def noWrite (c : CsrName) (write : Bool) : CsrAccess := if write then .illegal else .ok c

/-- A CSR of the counters option (R35 c). -/
def counterCsr (s : State) (a : CsrAccess) : CsrAccess := if s.cfg.hasCounters then a else .illegal

/-- The outcome of an access by a CSR instruction to CSR number `n` (R35), in machine mode or, from the debugger, in debug mode. -/
def csrAccess (s : State) (n : BitVec 12) (write : Bool) : CsrAccess :=
  match csrOf n with
  | none => .illegal
  | some c =>
    match c with
    | .mvendorid | .marchid | .mimpid | .mhartid => noWrite c write
    | .mtvec | .mtvt | .jvt => if s.cfg.vecFixed then noWrite c write else .ok c
    | .mcounteren => counterCsr s (openReadOnly n c write)
    | .mcountinhibit | .mcycle | .minstret => counterCsr s (.ok c)
    | .misa | .mraddr => if write then .readOnly c else .ok c
    | .mip | .mclicbase => openReadOnly n c write
    | .mcpuid => noWrite c write
    | .tinfo => if s.hasDebug then openReadOnly n c write else .refused .debugCsrAbsent
    | .mdbginfo | .mpcfifo => if s.hasDebug then noWrite c write else .refused .debugCsrAbsent
    | .dcsr | .dpc | .dscratch0 | .dscratch1 => if s.dbg.debugMode then .ok c else .illegal
    | .tdata1 | .tdata2 | .tdata3 => triggerCsr s c write
    | .tselect | .tcontrol | .mcontext | .mhaltcause => debugCsr s c
    | .mhcr => if write then .refused .mhcrWrite else .ok c
    | .mscratchcswl => .ok c
    | .mstatus | .mscratch | .mepc | .mcause | .mxstatus | .mexstatus => .ok c

/-- The retirement of a CSR instruction that wrote `c`: a written minstret keeps the written value (92 D24), and whether
an instruction that changes whether minstret counts is itself counted is open (notes/assumptions/53.md). -/
def retireCsr (s t : State) (c : CsrName) : State :=
  if c = .minstret then { t with pc := normPc (s.pc + 4) }
  else if countsRetired t = countsRetired s then t.retire 4
  else
    { t with
      pc := normPc (s.pc + 4)
      ctr := if Config.countedOnChange then { t.ctr with minstret := t.ctr.minstret + 1 } else t.ctr }

/-- A CSR instruction that writes what `f` makes of the state it finds and of the value it read (R240). -/
def csrModify (s : State) (rd : Reg) (n : BitVec 12) (f : CsrName → Word → State) : Out :=
  match csrAccess s n true with
  | .illegal => .next (raiseIllegal s)
  | .refused r => .refused r
  | .readOnly c => .next ((s.setX rd (csrRead s c)).retire 4)
  | .ok c => .next (retireCsr s ((f c (csrRead s c)).setX rd (csrRead s c)) c)

/-- A CSR instruction that only reads (R240). -/
def csrFetch (s : State) (rd : Reg) (n : BitVec 12) : Out :=
  match csrAccess s n false with
  | .illegal => .next (raiseIllegal s)
  | .refused r => .refused r
  | .readOnly c => .next ((s.setX rd (csrRead s c)).retire 4)
  | .ok c => .next ((s.setX rd (csrRead s c)).retire 4)

/-- mscratchcswl is described for CSRRW only (10_state.md R41). -/
def notSwap (n : BitVec 12) (k : Out) : Out := if csrOf n = some .mscratchcswl then .refused .mscratchcswlForm else k

/-- CSRRW (R241). -/
def execCsrrw (rd rs1 : Reg) (n : BitVec 12) (s : State) : Out :=
  csrModify s rd n fun c _ => csrWrite s c (s.x rs1)

/-- CSRRS (R242): no write when the rs1 field is 0. -/
def execCsrrs (rd rs1 : Reg) (n : BitVec 12) (s : State) : Out :=
  notSwap n <|
    if rs1 = 0 then csrFetch s rd n else csrModify s rd n fun c t => csrWrite s c (t ||| s.x rs1)

/-- CSRRC (R243): no write when the rs1 field is 0. -/
def execCsrrc (rd rs1 : Reg) (n : BitVec 12) (s : State) : Out :=
  notSwap n <|
    if rs1 = 0 then csrFetch s rd n else csrModify s rd n fun c t => csrWrite s c (t &&& ~~~(s.x rs1))

/-- Two states agree on all that a CSR write can change. -/
def sameCsrs (s t : State) : Bool := decide (s.csr = t.csr ∧ s.ctr = t.ctr ∧ s.dbg = t.dbg)

/-- What CSRRWI writes (R244): the readings `preserve` and `zero` differ only where a writable bit above bit 4 holds 1,
and there CSRRWI_UPPER decides (notes/assumptions/8.md). -/
def csrWriteImm (s : State) (imm : BitVec 5) (c : CsrName) (t : Word) : State :=
  let zero := csrWrite s c (zext5 imm)
  let preserve := csrWrite s c (t.extractLsb' 5 27 ++ imm)
  if sameCsrs zero preserve then zero
  else
    match Config.csrrwiUpper with
    | .preserve => preserve
    | .zero => zero

/-- CSRRWI (R244). -/
def execCsrrwi (rd : Reg) (imm : BitVec 5) (n : BitVec 12) (s : State) : Out :=
  notSwap n <| csrModify s rd n (csrWriteImm s imm)

/-- CSRRSI (R245): no write when the immediate is 0. -/
def execCsrrsi (rd : Reg) (imm : BitVec 5) (n : BitVec 12) (s : State) : Out :=
  notSwap n <|
    if imm = 0 then csrFetch s rd n else csrModify s rd n fun c t => csrWrite s c (t ||| zext5 imm)

/-- CSRRCI (R246): no write when the immediate is 0. -/
def execCsrrci (rd : Reg) (imm : BitVec 5) (n : BitVec 12) (s : State) : Out :=
  notSwap n <|
    if imm = 0 then csrFetch s rd n else csrModify s rd n fun c t => csrWrite s c (t &&& ~~~(zext5 imm))

end Sys2Proof.Machine
end

