-- ==== Sys2Proof/Machine/LoadStore.lean ====
section
/-!
DEFINITION. RV32E loads and stores (40_rv32e_base.md R215 to R222, R251).
-/

namespace Sys2Proof.Machine

/-- LB (R215). -/
def execLb (rd rs1 : Reg) (imm : BitVec 12) (s : State) : Out :=
  loadTo s 4 .byte rd (effAddr s rs1 imm) sextByte

/-- LBU (R216). -/
def execLbu (rd rs1 : Reg) (imm : BitVec 12) (s : State) : Out :=
  loadTo s 4 .byte rd (effAddr s rs1 imm) zextByte

/-- LH (R217). -/
def execLh (rd rs1 : Reg) (imm : BitVec 12) (s : State) : Out :=
  loadTo s 4 .half rd (effAddr s rs1 imm) sextHalf

/-- LHU (R218). -/
def execLhu (rd rs1 : Reg) (imm : BitVec 12) (s : State) : Out :=
  loadTo s 4 .half rd (effAddr s rs1 imm) zextHalf

/-- LW (R219). -/
def execLw (rd rs1 : Reg) (imm : BitVec 12) (s : State) : Out :=
  loadTo s 4 .word rd (effAddr s rs1 imm) id

/-- SB (R220). -/
def execSb (rs2 rs1 : Reg) (imm : BitVec 12) (s : State) : Out :=
  storeFrom s 4 .byte (effAddr s rs1 imm) (s.x rs2)

/-- SH (R221). -/
def execSh (rs2 rs1 : Reg) (imm : BitVec 12) (s : State) : Out :=
  storeFrom s 4 .half (effAddr s rs1 imm) (s.x rs2)

/-- SW (R222). -/
def execSw (rs2 rs1 : Reg) (imm : BitVec 12) (s : State) : Out :=
  storeFrom s 4 .word (effAddr s rs1 imm) (s.x rs2)

end Sys2Proof.Machine
end

