-- ==== Sys2Proof/Machine/Mul.lean ====
section
/-!
DEFINITION. Zmmul (41_zmmul.md R260 to R264).
-/

namespace Sys2Proof.Machine

/-- The multiplier is built in (R260). -/
def hasMul (s : State) : Bool := s.cfg.mul != .none

/-- Bits [63:32] of the product of two integers (R262 to R264). -/
def highWord (p : Int) : Word := (BitVec.ofInt 64 p).extractLsb' 32 32

/-- MUL (R261). -/
def execMul (rd rs1 rs2 : Reg) (s : State) : Out :=
  gated (hasMul s) s (writeTo s 4 rd (s.x rs1 * s.x rs2))

/-- MULH (R262). -/
def execMulh (rd rs1 rs2 : Reg) (s : State) : Out :=
  gated (hasMul s) s (writeTo s 4 rd (highWord ((s.x rs1).toInt * (s.x rs2).toInt)))

/-- MULHSU (R263). -/
def execMulhsu (rd rs1 rs2 : Reg) (s : State) : Out :=
  gated (hasMul s) s (writeTo s 4 rd (highWord ((s.x rs1).toInt * (s.x rs2).toNat)))

/-- MULHU (R264). -/
def execMulhu (rd rs1 rs2 : Reg) (s : State) : Out :=
  gated (hasMul s) s (writeTo s 4 rd (highWord ((s.x rs1).toNat * (s.x rs2).toNat)))

end Sys2Proof.Machine
end

