-- ==== Sys2Proof/Machine/Boundary.lean ====
section
/-!
DEFINITION. What happens between instructions: sampling the inputs, resets, debug requests, lockup, the low-power state,
interrupts and triggers (60_exceptions.md R416 to R428, R460 to R472; 70_reset_and_hazards.md R480 to R482).
-/

namespace Sys2Proof.Machine

/-! ## Inputs (70_reset_and_hazards.md R495) -/

/-- What the outside does in this step: the head of the script, or, where it has ended, free clocks and quiet pins
(notes/assumptions/47.md). -/
def nextInput (s : State) : StepInput :=
  match s.inputs with
  | i :: _ => i
  | [] =>
    { cycles := Config.cycles s.tick
      sysCnt := s.pins.sysCnt + Config.sysTicks s.tick
      lines := s.pins.lines
      event := false
      busErrors := []
      reset := none
      request := none
      command := none }

/-- The line makes the transition an edge source waits for (R446). -/
def hasEdge (falling old new : Bool) : Bool := if falling then old && !new else !old && new

/-- Source `id` after its external line went from `old` to `new` (R446). -/
def sampleSource (old new : BitVec 112) (id : Nat) (x : ClicSource) : ClicSource :=
  if decide (16 ≤ id) && x.edge && hasEdge x.falling (old.getLsbD (id - 16)) (new.getLsbD (id - 16)) then
    { x with latch := true }
  else x

/-- The sources after sampling the external lines. -/
def sampleSources (old new : BitVec 112) (v : Vector ClicSource 128) : Vector ClicSource 128 :=
  if old = new then v else Vector.ofFn fun i => sampleSource old new i.val v[i]

/-- mcycle counts (10_state.md R48). -/
def countsCycles (s : State) : Bool :=
  s.cfg.hasCounters && !s.ctr.mcy && !s.sleeping && !(s.dbg.debugMode && s.dbg.stopcount)

/-- The state with the inputs of this step sampled and the free registers redrawn. -/
def sample (s : State) (i : StepInput) : State :=
  { s with
    csr := { s.csr with mip := Config.mipValue s.tick, mhcr := Config.mhcrValue s.tick }
    ctr := if countsCycles s then { s.ctr with mcycle := s.ctr.mcycle + BitVec.ofNat 32 i.cycles } else s.ctr
    dbg := { s.dbg with mdbginfo := Config.mdbginfoValue s.tick, mpcfifo := Config.mpcfifoValue s.tick }
    clic := { s.clic with sources := sampleSources s.pins.lines i.lines s.clic.sources }
    pins := { lines := i.lines, sysCnt := i.sysCnt, event := i.event, busErrors := i.busErrors }
    inputs := s.inputs.tail
    tick := s.tick + 1 }

/-! ## Deciding what happens -/

/-- in_irq (R428). -/
def inIrq (s : State) : Bool := s.trapStack.contains .irq

/-- An event ends the low-power state (R461, R462): an enabled pending source, whatever mstatus.MIE holds, or the
external event when WFE = 1. A debug request is decided before. -/
def wakes (s : State) : Bool := (winner s).isSome || (s.pins.event && s.csr.wfe)

/-- Interrupts are taken: mstatus.MIE, and during a single step dcsr.STEPIE (R421, R430). -/
def interruptsOn (s : State) : Bool := s.csr.mie && (!(s.hasDebug && s.dbg.step) || s.dbg.stepie)

/-- What a debug request does (R466, R471); a build without debug resources has none. A request that meets the hart inside
an instruction leaves a state the spec does not give, unless the hart executes none (notes/assumptions/56.md). -/
def debugRequest (s : State) (r : Option DebugRequest) : Option Boundary :=
  if !s.hasDebug then none
  else
    match r with
    | none => none
    | some .sync => some (.halt 3 3)
    | some .async => some (.halt Config.asyncCause 8)
    | some .asyncInside =>
      if s.csr.lockup || s.sleeping then some (.halt Config.asyncCause 8) else some (.refused .asyncDebugRequest)
    | some .resetHalt => if s.tick = 1 then some (.halt 5 5) else none

/-- A trigger that can fire: DATA is not its reset value, and the context matches where MSELECT asks for it (R469). -/
def armed (s : State) (t : Trigger) : Bool := t.data != 0 && (!t.mselect || t.mvalue == s.dbg.mcontext)

/-- The triggers at this boundary (R469): what the armed ones do is open (notes/assumptions/38.md); a breakpoint needs MTE. -/
def triggerBoundary (s : State) : Boundary :=
  if s.hasDebug && s.dbg.triggers.any (armed s) then
    match Config.triggerFire s.tick (s.dbg.triggers.filter (armed s)) with
    | .none => .run
    | .breakpoint => if s.dbg.mte then .breakpoint else .run
    | .enterDebug => .halt 2 2
  else .run

/-- The interrupt to take, or the triggers (R421, R426, R427). -/
def interruptBoundary (s : State) : Boundary :=
  match (if interruptsOn s then winner s else none) with
  | some id => if inIrq s then .fault .nestedInterrupt else .interrupt id
  | none => triggerBoundary s

/-- What happens at a boundary at which no reset comes. -/
def hartBoundary (s : State) (i : StepInput) : Boundary :=
  if s.dbg.debugMode then
    match i.command with
    | some c => .command c
    | none => .stay
  else
    match debugRequest s i.request with
    | some b => b
    | none =>
      if s.csr.lockup then .stay
      else if s.sleeping && !wakes s then .stay
      else interruptBoundary s

/-- What happens at this boundary, the inputs of the step being sampled: a build the manual forbids is rejected
(20_memory.md R104), and a reset comes before everything else. -/
def boundary (s : State) (i : StepInput) : Boundary :=
  if !s.cfg.wf then .refused .illegalBuild
  else
    match i.reset with
    | some r => .reset r (i.request == some .resetHalt)
    | none => hartBoundary s i

/-! ## Resets (R463; 70_reset_and_hazards.md R480 to R482) -/

/-- The machine CSRs after a reset by the platform. -/
def resetCsrs (s : State) : Csrs :=
  let c := (State.resetWith s.cfg).csr
  { c with
    mscratch := Config.resetValue s.tick .mscratch
    mepc := normPc (clearBit0 (Config.resetValue s.tick .mepc))
    jvtBase := if s.cfg.vecFixed then c.jvtBase else (Config.resetValue s.tick .jvt).extractLsb' 6 26
    copEn := (Config.resetValue s.tick .copinstee).getLsbD 0
    mip := s.csr.mip
    mhcr := s.csr.mhcr }

/-- The debug unit after a reset by the platform. -/
def resetDebug (s : State) : DebugUnit :=
  let d := Config.resetValue s.tick .dcsr
  { (State.resetWith s.cfg).dbg with
    tselect := (Config.resetValue s.tick .tselect).toNat % s.cfg.triggers.length
    mcontext := (Config.resetValue s.tick .mcontext).extractLsb' 0 6
    ebreakm := d.getLsbD 15
    stepie := d.getLsbD 11
    stopcount := d.getLsbD 10
    mprven := d.getLsbD 4
    step := d.getLsbD 2
    cause := d.extractLsb' 6 3
    dpc := Config.resetValue s.tick .dpc
    dscratch0 := Config.resetValue s.tick .dscratch0
    dscratch1 := Config.resetValue s.tick .dscratch1
    mhaltcause := Config.resetValue s.tick .mhaltcause
    mdbginfo := s.dbg.mdbginfo
    mpcfifo := s.dbg.mpcfifo }

/-- The core reset by the platform in a run (R480 to R482): the reset values the spec states, free values where it states
none; memory and what lies outside the core stay (notes/assumptions/51.md). -/
def resetCore (s : State) : State :=
  { State.resetWith s.cfg with
    regs := Vector.ofFn fun i => Config.resetValue s.tick (.gpr i)
    csr := resetCsrs s
    dbg := resetDebug s
    pins := { s.pins with sysCnt := 0 }
    mem := s.mem
    cop := s.cop
    devices := s.devices
    inputs := s.inputs
    tick := s.tick }

/-- A reset by the platform: of the core, or of the system with the memory it leaves; with a reset-halt request the hart is in
debug mode before its first instruction, with cause 5 (R480, R482). -/
def platformReset (s : State) (r : PlatformReset) (halt : Bool) : State :=
  let t :=
    match r with
    | .core => resetCore s
    | .system cells => { resetCore s with mem := Memory.ofCells cells }
  if halt && t.hasDebug then enterDebug t 5 5 else t

/-! ## Interrupt entry (R422 to R425) -/

/-- Steps (1) to (4), (6) and (7) of R422; EXPT_VLD is open (R415; notes/assumptions/19.md). -/
def interruptEntry (s : State) (id : Nat) : State :=
  let s := s.saveMte
  { s with
    csr :=
      { s.csr with
        mepc := normPc (clearBit0 s.pc)
        causeCode := BitVec.ofNat 9 id
        causeInt := true
        mpie := s.csr.mie
        mie := false
        exptVld := s.csr.exptVld || Config.exptVldOnInterrupt }
    trapStack := .irq :: s.trapStack
    sleeping := false }

/-- mcause.MINHV set or cleared (R424). -/
def setMinhv (s : State) (b : Bool) : State := { s with csr := { s.csr with minhv := b } }

/-- The acknowledge of a vectored edge interrupt clears its pending latch (R425). -/
def acknowledge (s : State) (id : Nat) : State :=
  if (sourceOf s id).edge then setSource s id { sourceOf s id with latch := false } else s

/-- The address of the vector table's word for `id` (R424). -/
def vectorAddr (s : State) (id : Nat) : Word := (s.csr.mtvtBase ++ (0 : BitVec 6)) + 4 * BitVec.ofNat 32 id

/-- The entry address a table word gives: an even word is the address, an odd one leaves it open (R424). -/
def vectorTarget (s : State) (v : Word) : Word :=
  if v.getLsbD 0 then clearBit0 (Config.oddVectorTarget s.tick v) else v

/-- Taking the interrupt `id` (R422): non-vectored by R423, vectored by R424 and R425. -/
def takeInterrupt (s : State) (id : Nat) : Out :=
  let t := interruptEntry s id
  if (sourceOf s id).shv then
    match loadVector (setMinhv t true) (vectorAddr s id) with
    | .ok (v, u) => .next { acknowledge (setMinhv u false) id with pc := normPc (vectorTarget s v) }
    | .exc _ => .refused .vectorTableError
    | .fault f => .fault f
    | .refused r => .refused r
  else .next { t with pc := normPc s.trapBase }

/-! ## After an instruction -/

/-- The hart is awake (R461). -/
def wake (s : State) : State := { s with sleeping := false }

/-- Single step: after one instruction the hart is in debug mode again, with cause 4 (R466, R472). DESIGN CHOICE: an EBREAK or
C.EBREAK that has entered debug mode itself keeps its cause 1; R466 does not order the two (notes/assumptions/56.md). An
instruction that raised an exception, or whose exception locked the hart up (R416), is followed by debug mode too (56.md). -/
def stepDone (s : State) : State :=
  if s.hasDebug && s.dbg.step && !s.dbg.debugMode then enterDebug s 4 4 else s

/-- The single-step rule applied to what an instruction answered. -/
def afterInstr : Out → Out
  | .next s => .next (stepDone s)
  | .fault f => .fault f
  | .refused r => .refused r

/-! ## Outputs (R416, R460, R463) -/

/-- cpu_pad_lockup: a debug request lowers it (R416, R417). -/
def padLockup (s : State) : Bool := s.csr.lockup && !s.dbg.debugMode

/-- cpu_pad_srst[1:0] (R463). -/
def padSrst (s : State) : BitVec 2 := s.csr.softRst

/-- sysio_pad_lpmd_b[1:0] (R460, R461). -/
def padLpmd (s : State) : BitVec 2 := if s.sleeping then s.csr.lpmd else 3

end Sys2Proof.Machine
end

