-- ==== Sys2Proof/Machine/System.lean ====
section
/-!
DEFINITION. RV32E fences and system instructions (40_rv32e_base.md R238, R239, R247 to R250). The CSR instructions are in Csr.lean.
-/

namespace Sys2Proof.Machine

/-- FENCE orders accesses that are already in program order: it changes nothing (R238, 20_memory.md R121). -/
def execFence (_pred _succ : BitVec 4) (s : State) : Out := .next (s.retire 4)

/-- FENCE.I makes every earlier store visible to fetch (R239, 20_memory.md R122). -/
def execFenceI (s : State) : Out := .next ({ s with stale := [] }.retire 4)

/-- ECALL: the environment-call exception, which never locks up (R247, 60_exceptions.md R416). -/
def execEcall (s : State) : Out := .next (enterException s 11)

/-- EBREAK (R248). -/
def execEbreak (s : State) : Out := .next (breakpointInstruction s)

/-- MRET (R249). -/
def execMret (s : State) : Out := .next ((returnFromTrap s).retireTo s.csr.mepc)

/-- WFI retires and enters the low-power state, unless something already wakes the hart (R250, 60_exceptions.md R462). -/
def execWfi (s : State) : Out := .next { s.retire 4 with sleeping := !wakes s }

end Sys2Proof.Machine
end

