-- ==== Sys2Proof/Machine/Zcb.lean ====
section
/-!
DEFINITION. Zcb (44_zcb_zcmp_zcmt.md R350 to R361).
-/

namespace Sys2Proof.Machine

/-- The sign and zero extensions the standard ties to Zbb exist: with B, or as a free value says (R350;
notes/assumptions/33.md). -/
def hasZcbExt (s : State) : Bool := s.cfg.hasB || Config.zcbWithoutB

/-- C.LBU (R351). -/
def execCLbu (rd rs1 : CReg) (imm : BitVec 2) (s : State) : Out :=
  loadTo s 2 .byte (creg rd) (s.x (creg rs1) + cByteOffset imm) zextByte

/-- C.LHU (R352). -/
def execCLhu (rd rs1 : CReg) (imm : BitVec 1) (s : State) : Out :=
  loadTo s 2 .half (creg rd) (s.x (creg rs1) + cHalfOffset imm) zextHalf

/-- C.LH (R353). -/
def execCLh (rd rs1 : CReg) (imm : BitVec 1) (s : State) : Out :=
  loadTo s 2 .half (creg rd) (s.x (creg rs1) + cHalfOffset imm) sextHalf

/-- C.SB (R354). -/
def execCSb (rs2 rs1 : CReg) (imm : BitVec 2) (s : State) : Out :=
  storeFrom s 2 .byte (s.x (creg rs1) + cByteOffset imm) (s.x (creg rs2))

/-- C.SH (R355). -/
def execCSh (rs2 rs1 : CReg) (imm : BitVec 1) (s : State) : Out :=
  storeFrom s 2 .half (s.x (creg rs1) + cHalfOffset imm) (s.x (creg rs2))

/-- C.ZEXT.B (R356). -/
def execCZextB (rd : CReg) (s : State) : Out :=
  writeTo s 2 (creg rd) (zextByte (s.x (creg rd)))

/-- C.SEXT.B (R357). -/
def execCSextB (rd : CReg) (s : State) : Out :=
  gated (hasZcbExt s) s (writeTo s 2 (creg rd) (sextByte (s.x (creg rd))))

/-- C.ZEXT.H (R358). -/
def execCZextH (rd : CReg) (s : State) : Out :=
  gated (hasZcbExt s) s (writeTo s 2 (creg rd) (zextHalf (s.x (creg rd))))

/-- C.SEXT.H (R359). -/
def execCSextH (rd : CReg) (s : State) : Out :=
  gated (hasZcbExt s) s (writeTo s 2 (creg rd) (sextHalf (s.x (creg rd))))

/-- C.NOT (R360). -/
def execCNot (rd : CReg) (s : State) : Out :=
  writeTo s 2 (creg rd) (~~~(s.x (creg rd)))

/-- C.MUL (R361). -/
def execCMul (rd rs2 : CReg) (s : State) : Out :=
  gated (hasMul s) s (writeTo s 2 (creg rd) (s.x (creg rd) * s.x (creg rs2)))

end Sys2Proof.Machine
end

