-- ==== Sys2Proof/Machine/Zcmp.lean ====
section
/-!
DEFINITION. Zcmp (44_zcb_zcmp_zcmt.md R362 to R368, R373).
-/

namespace Sys2Proof.Machine

/-- How a sequence of stack accesses ends. -/
inductive StackRun
  /-- Every access was performed. -/
  | done (s : State)
  /-- An access raised an exception; `kept` is the state with the transfers that are kept (R373). -/
  | exc (code : Nat) (kept : State)
  | fault (f : Fault)
  | refused (r : Refusal)

/-- `kept` with the k-th transfer, where the free value keeps it (R373; notes/assumptions/34.md). -/
def keepStore (kept : State) (tick k : Nat) (a v : Word) : State :=
  if Config.zcmpKept tick k then
    match storeMem kept .word a v with
    | .ok t => t
    | _ => kept
  else kept

/-- The stores of CM.PUSH, at falling addresses from `a` (R363): `kept` follows the transfers kept on an exception,
`cur` all of them. -/
def pushRun (src : State) : List Reg → Word → Nat → State → State → StackRun
  | [], _, _, _, cur => .done cur
  | r :: l, a, k, kept, cur =>
    match storeMem cur .word a (src.x r) with
    | .ok t => pushRun src l (a - 4) (k + 1) (keepStore kept src.tick k a (src.x r)) t
    | .exc code => .exc code kept
    | .fault f => .fault f
    | .refused r => .refused r

/-- `kept` with what a load of `cur` gives: the device has been asked, and the register is loaded where the free value keeps
it (R373; notes/assumptions/34.md). -/
def keepLoad (kept cur : State) (k : Nat) (r : Reg) (v : Word) : State :=
  let s := { kept with devices := cur.devices }
  if Config.zcmpKept cur.tick k then s.setX r v else s

/-- The loads of CM.POP, at falling addresses from `a` (R364). -/
def popRun : List Reg → Word → Nat → State → State → StackRun
  | [], _, _, _, cur => .done cur
  | r :: l, a, k, kept, cur =>
    match loadMem cur .word a with
    | .ok (v, t) => popRun l (a - 4) (k + 1) (keepLoad kept t k r v) (t.setX r v)
    | .exc code => .exc code kept
    | .fault f => .fault f
    | .refused r => .refused r

/-- Some of the `n` words below and at `a` lies in the TCIP window (R373). -/
def anyTcip (a : Word) : Nat → Bool
  | 0 => false
  | n + 1 => inTcip a || anyTcip (a - 4) n

/-- A Zcmp stack instruction goes on where its run is done; an exception leaves sp and pc (R373). -/
def StackRun.elim (r : StackRun) (k : State → Out) : Out :=
  match r with
  | .done t => k t
  | .exc code kept => .next (raise kept code)
  | .fault f => .fault f
  | .refused r => .refused r

/-- The misaligned stack pointer first, then the TCIP window, then the run (R362, R373). -/
def stackGuard (s : State) (code : Nat) (a : Word) (n : Nat) (k : Out) : Out :=
  if misaligned .word a then .next (raise s code) else if anyTcip a n then .refused .zcmpTcip else k

/-- The loads and the sp update of CM.POP; `k` finishes the instruction (R364). -/
def popThen (s : State) (l : RegList) (spimm : BitVec 2) (k : State → Out) : Out :=
  stackGuard s 4 (s.x spReg + stackAdj spimm - 4) (listRegs l).length <|
    (popRun (listRegs l) (s.x spReg + stackAdj spimm - 4) 0 s s).elim fun t =>
      k (t.setX spReg (s.x spReg + stackAdj spimm))

/-- CM.PUSH (R363). -/
def execCmPush (l : RegList) (spimm : BitVec 2) (s : State) : Out :=
  stackGuard s 6 (s.x spReg - 4) (listRegs l).length <|
    (pushRun s (listRegs l) (s.x spReg - 4) 0 s s).elim fun t =>
      .next ((t.setX spReg (s.x spReg - stackAdj spimm)).retire 2)

/-- CM.POP (R364). -/
def execCmPop (l : RegList) (spimm : BitVec 2) (s : State) : Out := popThen s l spimm fun t => .next (t.retire 2)

/-- CM.POPRETZ (R366): a0 becomes 0. -/
def execCmPopretz (l : RegList) (spimm : BitVec 2) (s : State) : Out :=
  popThen s l spimm fun t => .next ((t.setX 10 0).retireTo (clearBit0 (t.x raReg)))

/-- CM.POPRET (R365): the return uses the ra just loaded. -/
def execCmPopret (l : RegList) (spimm : BitVec 2) (s : State) : Out :=
  popThen s l spimm fun t => .next (t.retireTo (clearBit0 (t.x raReg)))

/-- CM.MVSA01 (R367). -/
def execCmMvsa01 (r1 r2 : SReg) (s : State) : Out :=
  .next (((s.setX (sreg r1) (s.x 10)).setX (sreg r2) (s.x 11)).retire 2)

/-- CM.MVA01S (R368): both sources are read first. -/
def execCmMva01s (r1 r2 : SReg) (s : State) : Out :=
  .next (((s.setX 10 (s.x (sreg r1))).setX 11 (s.x (sreg r2))).retire 2)

end Sys2Proof.Machine
end

