-- ==== Sys2Proof/Machine/Zcmt.lean ====
section
/-!
DEFINITION. Zcmt (44_zcb_zcmp_zcmt.md R369 to R372).
-/

namespace Sys2Proof.Machine

/-- The address of a jump table entry: {jvt[31:6], 6'b0} + 4 * index (R370). -/
def jvtEntry (s : State) (index : Nat) : Word := (s.csr.jvtBase ++ (0 : BitVec 6)) + 4 * BitVec.ofNat 32 index

/-- CM.JT (R371). -/
def execCmJt (index : BitVec 5) (s : State) : Out :=
  (fetchTable s (jvtEntry s index.toNat)).elim s fun t => .next (s.retireTo (clearBit0 t))

/-- CM.JALT: the link is pc + 2 (R372). -/
def execCmJalt (index : BitVec 8) (s : State) : Out :=
  (fetchTable s (jvtEntry s index.toNat)).elim s fun t => jumpLink s 2 raReg (clearBit0 t)

end Sys2Proof.Machine
end

