-- ==== Sys2Proof/Machine/Dispatch.lean ====
section
/-! DEFINITION. The meaning of each instruction: one arm per constructor of Instr. -/

namespace Sys2Proof.Machine

def exec (i : Instr) (s : State) : Host.Outcome State Fault Refusal :=
  match i with
  | .add rd rs1 rs2 => Sys2Proof.Machine.execAdd rd rs1 rs2 s
  | .addi rd rs1 imm => Sys2Proof.Machine.execAddi rd rs1 imm s
  | .and rd rs1 rs2 => Sys2Proof.Machine.execAnd rd rs1 rs2 s
  | .andi rd rs1 imm => Sys2Proof.Machine.execAndi rd rs1 imm s
  | .auipc rd imm => Sys2Proof.Machine.execAuipc rd imm s
  | .beq rs1 rs2 imm => Sys2Proof.Machine.execBeq rs1 rs2 imm s
  | .bge rs1 rs2 imm => Sys2Proof.Machine.execBge rs1 rs2 imm s
  | .bgeu rs1 rs2 imm => Sys2Proof.Machine.execBgeu rs1 rs2 imm s
  | .blt rs1 rs2 imm => Sys2Proof.Machine.execBlt rs1 rs2 imm s
  | .bltu rs1 rs2 imm => Sys2Proof.Machine.execBltu rs1 rs2 imm s
  | .bne rs1 rs2 imm => Sys2Proof.Machine.execBne rs1 rs2 imm s
  | .csrrc rd rs1 csr => Sys2Proof.Machine.execCsrrc rd rs1 csr s
  | .csrrci rd imm csr => Sys2Proof.Machine.execCsrrci rd imm csr s
  | .csrrs rd rs1 csr => Sys2Proof.Machine.execCsrrs rd rs1 csr s
  | .csrrsi rd imm csr => Sys2Proof.Machine.execCsrrsi rd imm csr s
  | .csrrw rd rs1 csr => Sys2Proof.Machine.execCsrrw rd rs1 csr s
  | .csrrwi rd imm csr => Sys2Proof.Machine.execCsrrwi rd imm csr s
  | .ebreak => Sys2Proof.Machine.execEbreak s
  | .ecall => Sys2Proof.Machine.execEcall s
  | .fence pred succ => Sys2Proof.Machine.execFence pred succ s
  | .fenceI => Sys2Proof.Machine.execFenceI s
  | .jal rd imm => Sys2Proof.Machine.execJal rd imm s
  | .jalr rd rs1 imm => Sys2Proof.Machine.execJalr rd rs1 imm s
  | .lb rd rs1 imm => Sys2Proof.Machine.execLb rd rs1 imm s
  | .lbu rd rs1 imm => Sys2Proof.Machine.execLbu rd rs1 imm s
  | .lh rd rs1 imm => Sys2Proof.Machine.execLh rd rs1 imm s
  | .lhu rd rs1 imm => Sys2Proof.Machine.execLhu rd rs1 imm s
  | .lui rd imm => Sys2Proof.Machine.execLui rd imm s
  | .lw rd rs1 imm => Sys2Proof.Machine.execLw rd rs1 imm s
  | .mret => Sys2Proof.Machine.execMret s
  | .or rd rs1 rs2 => Sys2Proof.Machine.execOr rd rs1 rs2 s
  | .ori rd rs1 imm => Sys2Proof.Machine.execOri rd rs1 imm s
  | .sb rs2 rs1 imm => Sys2Proof.Machine.execSb rs2 rs1 imm s
  | .sh rs2 rs1 imm => Sys2Proof.Machine.execSh rs2 rs1 imm s
  | .sll rd rs1 rs2 => Sys2Proof.Machine.execSll rd rs1 rs2 s
  | .slli rd rs1 shamt => Sys2Proof.Machine.execSlli rd rs1 shamt s
  | .slt rd rs1 rs2 => Sys2Proof.Machine.execSlt rd rs1 rs2 s
  | .slti rd rs1 imm => Sys2Proof.Machine.execSlti rd rs1 imm s
  | .sltiu rd rs1 imm => Sys2Proof.Machine.execSltiu rd rs1 imm s
  | .sltu rd rs1 rs2 => Sys2Proof.Machine.execSltu rd rs1 rs2 s
  | .sra rd rs1 rs2 => Sys2Proof.Machine.execSra rd rs1 rs2 s
  | .srai rd rs1 shamt => Sys2Proof.Machine.execSrai rd rs1 shamt s
  | .srl rd rs1 rs2 => Sys2Proof.Machine.execSrl rd rs1 rs2 s
  | .srli rd rs1 shamt => Sys2Proof.Machine.execSrli rd rs1 shamt s
  | .sub rd rs1 rs2 => Sys2Proof.Machine.execSub rd rs1 rs2 s
  | .sw rs2 rs1 imm => Sys2Proof.Machine.execSw rs2 rs1 imm s
  | .wfi => Sys2Proof.Machine.execWfi s
  | .xor rd rs1 rs2 => Sys2Proof.Machine.execXor rd rs1 rs2 s
  | .xori rd rs1 imm => Sys2Proof.Machine.execXori rd rs1 imm s
  | .mul rd rs1 rs2 => Sys2Proof.Machine.execMul rd rs1 rs2 s
  | .mulh rd rs1 rs2 => Sys2Proof.Machine.execMulh rd rs1 rs2 s
  | .mulhsu rd rs1 rs2 => Sys2Proof.Machine.execMulhsu rd rs1 rs2 s
  | .mulhu rd rs1 rs2 => Sys2Proof.Machine.execMulhu rd rs1 rs2 s
  | .sh1add rd rs1 rs2 => Sys2Proof.Machine.execSh1add rd rs1 rs2 s
  | .sh2add rd rs1 rs2 => Sys2Proof.Machine.execSh2add rd rs1 rs2 s
  | .sh3add rd rs1 rs2 => Sys2Proof.Machine.execSh3add rd rs1 rs2 s
  | .andn rd rs1 rs2 => Sys2Proof.Machine.execAndn rd rs1 rs2 s
  | .orn rd rs1 rs2 => Sys2Proof.Machine.execOrn rd rs1 rs2 s
  | .xnor rd rs1 rs2 => Sys2Proof.Machine.execXnor rd rs1 rs2 s
  | .clz rd rs1 => Sys2Proof.Machine.execClz rd rs1 s
  | .ctz rd rs1 => Sys2Proof.Machine.execCtz rd rs1 s
  | .cpop rd rs1 => Sys2Proof.Machine.execCpop rd rs1 s
  | .max rd rs1 rs2 => Sys2Proof.Machine.execMax rd rs1 rs2 s
  | .maxu rd rs1 rs2 => Sys2Proof.Machine.execMaxu rd rs1 rs2 s
  | .min rd rs1 rs2 => Sys2Proof.Machine.execMin rd rs1 rs2 s
  | .minu rd rs1 rs2 => Sys2Proof.Machine.execMinu rd rs1 rs2 s
  | .sextB rd rs1 => Sys2Proof.Machine.execSextB rd rs1 s
  | .sextH rd rs1 => Sys2Proof.Machine.execSextH rd rs1 s
  | .zextH rd rs1 => Sys2Proof.Machine.execZextH rd rs1 s
  | .rol rd rs1 rs2 => Sys2Proof.Machine.execRol rd rs1 rs2 s
  | .ror rd rs1 rs2 => Sys2Proof.Machine.execRor rd rs1 rs2 s
  | .rori rd rs1 shamt => Sys2Proof.Machine.execRori rd rs1 shamt s
  | .orcB rd rs1 => Sys2Proof.Machine.execOrcB rd rs1 s
  | .rev8 rd rs1 => Sys2Proof.Machine.execRev8 rd rs1 s
  | .bclr rd rs1 rs2 => Sys2Proof.Machine.execBclr rd rs1 rs2 s
  | .bclri rd rs1 shamt => Sys2Proof.Machine.execBclri rd rs1 shamt s
  | .bext rd rs1 rs2 => Sys2Proof.Machine.execBext rd rs1 rs2 s
  | .bexti rd rs1 shamt => Sys2Proof.Machine.execBexti rd rs1 shamt s
  | .binv rd rs1 rs2 => Sys2Proof.Machine.execBinv rd rs1 rs2 s
  | .binvi rd rs1 shamt => Sys2Proof.Machine.execBinvi rd rs1 shamt s
  | .bset rd rs1 rs2 => Sys2Proof.Machine.execBset rd rs1 rs2 s
  | .bseti rd rs1 shamt => Sys2Proof.Machine.execBseti rd rs1 shamt s
  | .cAdd rd rs2 => Sys2Proof.Machine.execCAdd rd rs2 s
  | .cAddi rd imm => Sys2Proof.Machine.execCAddi rd imm s
  | .cAddi4spn rd imm => Sys2Proof.Machine.execCAddi4spn rd imm s
  | .cAddi16sp imm => Sys2Proof.Machine.execCAddi16sp imm s
  | .cAnd rd rs2 => Sys2Proof.Machine.execCAnd rd rs2 s
  | .cAndi rd imm => Sys2Proof.Machine.execCAndi rd imm s
  | .cBeqz rs1 imm => Sys2Proof.Machine.execCBeqz rs1 imm s
  | .cBnez rs1 imm => Sys2Proof.Machine.execCBnez rs1 imm s
  | .cEbreak => Sys2Proof.Machine.execCEbreak s
  | .cJ imm => Sys2Proof.Machine.execCJ imm s
  | .cJal imm => Sys2Proof.Machine.execCJal imm s
  | .cJalr rs1 => Sys2Proof.Machine.execCJalr rs1 s
  | .cJr rs1 => Sys2Proof.Machine.execCJr rs1 s
  | .cLi rd imm => Sys2Proof.Machine.execCLi rd imm s
  | .cLui rd imm => Sys2Proof.Machine.execCLui rd imm s
  | .cLw rd rs1 imm => Sys2Proof.Machine.execCLw rd rs1 imm s
  | .cLwsp rd imm => Sys2Proof.Machine.execCLwsp rd imm s
  | .cMv rd rs2 => Sys2Proof.Machine.execCMv rd rs2 s
  | .cNop => Sys2Proof.Machine.execCNop s
  | .cOr rd rs2 => Sys2Proof.Machine.execCOr rd rs2 s
  | .cSlli rd shamt => Sys2Proof.Machine.execCSlli rd shamt s
  | .cSrai rd shamt => Sys2Proof.Machine.execCSrai rd shamt s
  | .cSrli rd shamt => Sys2Proof.Machine.execCSrli rd shamt s
  | .cSw rs2 rs1 imm => Sys2Proof.Machine.execCSw rs2 rs1 imm s
  | .cSwsp rs2 imm => Sys2Proof.Machine.execCSwsp rs2 imm s
  | .cSub rd rs2 => Sys2Proof.Machine.execCSub rd rs2 s
  | .cXor rd rs2 => Sys2Proof.Machine.execCXor rd rs2 s
  | .cLbu rd rs1 imm => Sys2Proof.Machine.execCLbu rd rs1 imm s
  | .cLhu rd rs1 imm => Sys2Proof.Machine.execCLhu rd rs1 imm s
  | .cLh rd rs1 imm => Sys2Proof.Machine.execCLh rd rs1 imm s
  | .cSb rs2 rs1 imm => Sys2Proof.Machine.execCSb rs2 rs1 imm s
  | .cSh rs2 rs1 imm => Sys2Proof.Machine.execCSh rs2 rs1 imm s
  | .cZextB rd => Sys2Proof.Machine.execCZextB rd s
  | .cSextB rd => Sys2Proof.Machine.execCSextB rd s
  | .cZextH rd => Sys2Proof.Machine.execCZextH rd s
  | .cSextH rd => Sys2Proof.Machine.execCSextH rd s
  | .cNot rd => Sys2Proof.Machine.execCNot rd s
  | .cMul rd rs2 => Sys2Proof.Machine.execCMul rd rs2 s
  | .cmPush list spimm => Sys2Proof.Machine.execCmPush list spimm s
  | .cmPop list spimm => Sys2Proof.Machine.execCmPop list spimm s
  | .cmPopretz list spimm => Sys2Proof.Machine.execCmPopretz list spimm s
  | .cmPopret list spimm => Sys2Proof.Machine.execCmPopret list spimm s
  | .cmMvsa01 r1 r2 => Sys2Proof.Machine.execCmMvsa01 r1 r2 s
  | .cmMva01s r1 r2 => Sys2Proof.Machine.execCmMva01s r1 r2 s
  | .cmJt index => Sys2Proof.Machine.execCmJt index s
  | .cmJalt index => Sys2Proof.Machine.execCmJalt index s
  | .cpx0 index rs1 uimm => Sys2Proof.Machine.execCpx0 index rs1 uimm s
  | .cpx1 index rs1 => Sys2Proof.Machine.execCpx1 index rs1 s
  | .cpx2 index rd rs1 uimm => Sys2Proof.Machine.execCpx2 index rd rs1 uimm s
  | .cpx3 index rd rs1 => Sys2Proof.Machine.execCpx3 index rd rs1 s
  | .cpx4 index rs1 rs2 uimm => Sys2Proof.Machine.execCpx4 index rs1 rs2 uimm s
  | .cpx5 index rs1 rs2 => Sys2Proof.Machine.execCpx5 index rs1 rs2 s
  | .cpx6 index rd rs1 rs2 => Sys2Proof.Machine.execCpx6 index rd rs1 rs2 s
  | .cpx9 index rd rs1 uimm => Sys2Proof.Machine.execCpx9 index rd rs1 uimm s

end Sys2Proof.Machine
end

