-- ==== Sys2Proof/Machine/Fetch.lean ====
section
/-!
DEFINITION. Fetching and decoding the instruction at the pc (20_memory.md R110, 30_encoding.md R160 to R166).
-/

namespace Sys2Proof.Machine

/-- The main-space address `a + k`, wrapping (R101). -/
def mainOffset (a k : Nat) : Nat := (a + k) % mainSize

/-- The two bytes of a parcel, low byte first. -/
def parcelBytes (p : Word) : List Byte := [p.extractLsb' 0 8, p.extractLsb' 8 8]

/-- The instruction at the pc: one parcel, and a second one when the first begins a 32-bit instruction (R110, R141).
DESIGN CHOICE: the second parcel is at the next main-space address, so that of a pc 0xDFFFFFFE, which keep32 allows, is at
address 0 and not in the TCIP window (notes/assumptions/45.md). -/
def fetchInstr (s : State) : Res (Except Reject Instr) :=
  if inTcip s.pc then .refused .fetchTcip
  else
    match fetchMain s .half (mainAddr s.pc) with
    | .ok p =>
      if isWide p.toNat then
        match fetchMain s .half (mainOffset (mainAddr s.pc) 2) with
        | .ok q => .ok (decode (parcelBytes p ++ parcelBytes q))
        | .exc c => .exc c
        | .fault f => .fault f
        | .refused r => .refused r
      else .ok (decode (parcelBytes p))
    | .exc c => .exc c
    | .fault f => .fault f
    | .refused r => .refused r

/-- Coprocessor words are recognised: the interface exists and mxstatus.COPINSTEE = 1 (45_coprocessor.md R382). -/
def copOn (s : State) : Bool := s.cfg.hasCop && s.csr.copEn

/-- The platform defines the custom word `w` as a coprocessor instruction (R165, 45_coprocessor.md R385, 92 D22). -/
def isUserDefined (s : State) (w : Word) : Bool := s.cfg.userCop.any fun p => w &&& p.mask == p.value

/-- What a word that is no instruction does (R160, R163, R165). With HAS_COP false a custom word is illegal; with HAS_COP true
it is refused, COPINSTEE = 0 or 1 (R165, 92 D22). A word the platform defines, which D22 sets apart, is a coprocessor
instruction, and R382 has every one raise exception 2 with COPINSTEE = 0 (notes/assumptions/57.md). -/
def execReject (s : State) : Reject → Out
  | .illegal => .next (raiseIllegal s)
  | .unsettled => .refused .unsettledEncoding
  | .custom w =>
    if s.cfg.hasCop && (s.csr.copEn || !isUserDefined s w) then .refused .customInstruction else .next (raiseIllegal s)
  | .cpxReserved => if copOn s then .refused .unsettledEncoding else .next (raiseIllegal s)
  | .truncated => .next (raiseIllegal s)

/-- A byte placed in memory from outside the machine, visible to fetch. -/
def placeByte (s : State) (a : Nat) (v : Byte) : State :=
  { s with mem := Memory.writeByte s.mem a v, stale := s.stale.filter (· != a) }

/-- Bytes placed from `a` on, wrapping at the end of the main space. -/
def placeBytes (s : State) (a : Nat) : List Byte → State
  | [] => s
  | b :: l => placeBytes (placeByte s (a % mainSize) b) (a + 1) l

end Sys2Proof.Machine
end

