-- ==== Sys2Proof/Machine/Debugger.lean ====
section
/-!
DEFINITION. What the debugger does with a halted hart (60_exceptions.md R465 to R472): registers, CSRs, memory, the
instructions it supplies, and the resume.
-/

namespace Sys2Proof.Machine

/-! ## Registers and memory (R470) -/

/-- A CSR the debugger writes: one that the build has. DESIGN CHOICE: a write of mhcr, which R51 does not describe, leaves
mhcr the free value it is at every step (notes/assumptions/13.md), and one of mscratchcswl, of which R41 describes CSRRW only,
writes mscratch (17.md). -/
def debugWriteCsr (s : State) (c : CsrName) (v : Word) : State :=
  match c with
  | .mcountinhibit | .mcycle | .minstret => if s.cfg.hasCounters then csrWrite s c v else s
  | _ => csrWrite s c v

/-- A value the debugger writes to memory, to a device or to a TCIP register, in any region of the main space. A fetch sees
it after FENCE.I (20_memory.md R122). -/
def debugWriteMem (s : State) (w : Width) (a v : Word) : Out :=
  if misaligned w a then .next s
  else if inTcip a then
    match tcipWrite s w a.toNat v with
    | .ok t => .next t
    | .exc _ => .next s
    | .fault f => .fault f
    | .refused r => .refused r
  else
    match response s .store (mainAddr a) with
    | .memory => .next (storeMain s w (mainAddr a) v)
    | .device => .next (storeDevice s w (mainAddr a) v)
    | .error => .next s

/-- A read of memory by the debugger: only a device notices it. -/
def debugReadMem (s : State) (w : Width) (a : Word) : State :=
  if !misaligned w a && !inTcip a && response s .load (mainAddr a) == .device then toDevice s .load w (mainAddr a) 0
  else s

/-! ## Instructions the debugger supplies (R465, R466, R468) -/

/-- The instruction reads the pc or sets it, which no rule describes on a halted hart (notes/assumptions/37.md). -/
def usesPc : Instr → Bool
  | .auipc .. | .beq .. | .bge .. | .bgeu .. | .blt .. | .bltu .. | .bne .. | .jal .. | .jalr .. | .mret | .cBeqz ..
  | .cBnez .. | .cJ .. | .cJal .. | .cJalr .. | .cJr .. | .cmPopret .. | .cmPopretz .. | .cmJt .. | .cmJalt .. => true
  | .add .. | .addi .. | .and .. | .andi .. | .csrrc .. | .csrrci .. | .csrrs .. | .csrrsi .. | .csrrw .. | .csrrwi ..
  | .ebreak | .ecall | .fence .. | .fenceI | .lb .. | .lbu .. | .lh .. | .lhu .. | .lui .. | .lw .. | .or .. | .ori ..
  | .sb .. | .sh .. | .sll .. | .slli .. | .slt .. | .slti .. | .sltiu .. | .sltu .. | .sra .. | .srai .. | .srl ..
  | .srli .. | .sub .. | .sw .. | .wfi | .xor .. | .xori .. | .mul .. | .mulh .. | .mulhsu .. | .mulhu .. | .sh1add ..
  | .sh2add .. | .sh3add .. | .andn .. | .orn .. | .xnor .. | .clz .. | .ctz .. | .cpop .. | .max .. | .maxu .. | .min ..
  | .minu .. | .sextB .. | .sextH .. | .zextH .. | .rol .. | .ror .. | .rori .. | .orcB .. | .rev8 .. | .bclr ..
  | .bclri .. | .bext .. | .bexti .. | .binv .. | .binvi .. | .bset .. | .bseti .. | .cAdd .. | .cAddi .. | .cAddi4spn ..
  | .cAddi16sp .. | .cAnd .. | .cAndi .. | .cEbreak | .cLi .. | .cLui .. | .cLw .. | .cLwsp .. | .cMv .. | .cNop
  | .cOr .. | .cSlli .. | .cSrai .. | .cSrli .. | .cSw .. | .cSwsp .. | .cSub .. | .cXor .. | .cLbu .. | .cLhu ..
  | .cLh .. | .cSb .. | .cSh .. | .cZextB .. | .cSextB .. | .cZextH .. | .cSextH .. | .cNot .. | .cMul .. | .cmPush ..
  | .cmPop .. | .cmMvsa01 .. | .cmMva01s .. | .cpx0 .. | .cpx1 .. | .cpx2 .. | .cpx3 .. | .cpx4 .. | .cpx5 ..
  | .cpx6 .. | .cpx9 .. => false

/-- EBREAK and C.EBREAK end what the debugger supplied. -/
def isBreak (i : Instr) : Bool := i == .ebreak || i == .cEbreak

/-- The instruction that went from `s` to `t` raised an exception: one that retires moves the pc on and leaves the ghost
stack. -/
def trapped (s t : State) : Bool := t.trapStack.length != s.trapStack.length || t.pc == s.pc

/-- What an instruction the debugger supplied leaves. -/
inductive DebugRun
  /-- It retired. -/
  | ran (s : State)
  /-- What was supplied ends here. -/
  | ended (s : State)
  | fault (f : Fault)
  | refused (r : Refusal)

/-- One supplied instruction on the halted hart. An exception is not taken, for no handler runs on a halted hart: the
instruction changes nothing but a transfer that R373 keeps, and what was supplied ends (notes/assumptions/37.md). No trigger
fires on it, armed or not, where R469 says nothing: PRESUMED, as in Debug 0.13.2 (38.md). -/
def debugExec (s : State) (i : Instr) : DebugRun :=
  if isBreak i then .ended s
  else if usesPc i then .refused .debugInstruction
  else
    match exec i s with
    | .next t =>
      if trapped s t then .ended { t with csr := s.csr, dbg := s.dbg, pc := s.pc, trapStack := s.trapStack }
      else .ran { t with pc := s.pc, sleeping := s.sleeping }
    | .fault f => .fault f
    | .refused r => .refused r

/-- A word that is no instruction among those supplied: exception 2 ends them, and half an instruction is open. -/
def debugReject (s : State) (e : Reject) : Out :=
  match e with
  | .truncated => .refused .debugInstruction
  | .illegal | .unsettled | .custom _ | .cpxReserved =>
    match execReject s e with
    | .next _ => .next s
    | .fault f => .fault f
    | .refused r => .refused r

/-- At most `n` instructions from the supplied bytes; where the bytes end stands an implicit EBREAK (R465). DESIGN CHOICE: the
inputs are sampled and the free registers drawn once a step, so two reads of mtimel (R116, R443), of mcycle (R48) or of mpcfifo
(R68) in one buffer see one value (notes/assumptions/37.md, 29.md, 28.md, 40.md). -/
def debugRun : Nat → State → List Byte → Out
  | 0, s, _ => .next s
  | n + 1, s, l =>
    if l.isEmpty then .next s
    else
      match decode l with
      | .error e => debugReject s e
      | .ok i =>
        match debugExec s i with
        | .ran t => debugRun n t (l.drop i.length)
        | .ended t => .next t
        | .fault f => .fault f
        | .refused r => .refused r

/-- One debugger command on the halted hart. The spec gives neither the width of a program buffer nor whether an instruction
may straddle the two (R465, 91 N27). PRESUMED, as in Debug 0.13.2: a buffer and itr are 32 bits wide. DESIGN CHOICE: the two
buffers are one stream of 8 bytes, the bytes of progbuf0 first, each little-endian, so that a 32-bit instruction may begin in
the upper half of progbuf0 and end in the lower half of progbuf1; itr runs one instruction, and the upper half of a word whose
lower half is a 16-bit instruction is not used (notes/assumptions/58.md). -/
def debugCommand (s : State) : DebugCommand → Out
  | .writeGpr r v => .next (s.setX r v)
  | .writeCsr c v => .next (debugWriteCsr s c v)
  | .writeMem w a v => debugWriteMem s w a v
  | .readMem w a => .next (debugReadMem s w a)
  | .progbuf w0 w1 => debugRun 4 s (leBytes 4 w0.toNat ++ leBytes 4 w1.toNat)
  | .itr w => debugRun 1 s (leBytes 4 w.toNat)
  | .resume => .next (leaveDebug s)

end Sys2Proof.Machine
end

