-- ==== Sys2Proof/Machine/Step.lean ====
section
/-!
DEFINITION. One step of the machine, and the placing of an instruction where the next step fetches it.
-/

namespace Sys2Proof.Machine

/-- The instruction at the pc: fetched (R110), decoded (R160) and executed. -/
def runInstr (s : State) : Host.Outcome State Fault Refusal :=
  (fetchInstr s).elim s fun d =>
    match d with
    | .ok i => exec i s
    | .error e => execReject s e

/-- What a step does once the boundary is decided. -/
def stepFrom (s : State) : Boundary → Host.Outcome State Fault Refusal
  | .run => afterInstr (runInstr (wake s))
  | .stay => .next s
  | .command c => debugCommand s c
  | .halt cause haltcause => .next (enterDebug s cause haltcause)
  | .interrupt id => takeInterrupt s id
  | .breakpoint => .next (raise (wake s) 3)
  | .reset r halt => .next (platformReset s r halt)
  | .fault f => .fault f
  | .refused r => .refused r

/-- One step: sample the inputs, decide the boundary, act. -/
def step (s : State) : Host.Outcome State Fault Refusal :=
  stepFrom (sample s (nextInput s)) (boundary (sample s (nextInput s)) (nextInput s))

/-- `s` with the instruction whose bits are `w` stored where `step` fetches its next instruction (notes/assumptions/48.md). -/
def State.withFetchWord (s : State) (nbits w : Nat) : State :=
  placeBytes s (mainAddr s.pc) (leBytes 4 (w % 2 ^ nbits))

end Sys2Proof.Machine
end

