-- ==== Sys2Proof/Safety.lean ====
section
/-!
DEFINITION. The terms the statements are written in: what an instruction leaves unchanged, the conditions under which
accesses complete, and the invariant of the machine.
-/

namespace Sys2Proof.Machine

/-! ## Encodings

`w` is the value of a 32-bit instruction and `p` a 16-bit parcel; a format's fields are read off it by position. -/

/-- R format (30_encoding.md R143): these fields mean `k rd rs1 rs2`. -/
def EncodedR (f7 f3 op : Nat) (k : Reg → Reg → Reg → Instr) : Prop :=
  ∀ w < 2 ^ 32, ∀ rd rs1 rs2 : Reg,
    field w 0 7 = op → field w 12 3 = f3 → field w 25 7 = f7 → field w 7 5 = rd.val → field w 15 5 = rs1.val →
      field w 20 5 = rs2.val → decodeTableWord 32 w = some (k rd rs1 rs2)

/-- The form with two registers and bits [31:20] fixed. -/
def EncodedR2 (top f3 op : Nat) (k : Reg → Reg → Instr) : Prop :=
  ∀ w < 2 ^ 32, ∀ rd rs1 : Reg,
    field w 0 7 = op → field w 12 3 = f3 → field w 20 12 = top → field w 7 5 = rd.val → field w 15 5 = rs1.val →
      decodeTableWord 32 w = some (k rd rs1)

/-- I format (R144). -/
def EncodedI (f3 op : Nat) (k : Reg → Reg → BitVec 12 → Instr) : Prop :=
  ∀ w < 2 ^ 32, ∀ (rd rs1 : Reg) (imm : BitVec 12),
    field w 0 7 = op → field w 12 3 = f3 → field w 7 5 = rd.val → field w 15 5 = rs1.val → field w 20 12 = imm.toNat →
      decodeTableWord 32 w = some (k rd rs1 imm)

/-- Shift-immediate form on opcode 0010011 (R145). -/
def EncodedShift (f7 f3 : Nat) (k : Reg → Reg → BitVec 5 → Instr) : Prop :=
  ∀ w < 2 ^ 32, ∀ (rd rs1 : Reg) (shamt : BitVec 5),
    field w 0 7 = 0b0010011 → field w 12 3 = f3 → field w 25 7 = f7 → field w 7 5 = rd.val → field w 15 5 = rs1.val →
      field w 20 5 = shamt.toNat → decodeTableWord 32 w = some (k rd rs1 shamt)

/-- S format on opcode 0100011 (R146): imm[11:5] at [31:25], imm[4:0] at [11:7]. -/
def EncodedS (f3 : Nat) (k : Reg → Reg → BitVec 12 → Instr) : Prop :=
  ∀ w < 2 ^ 32, ∀ (rs2 rs1 : Reg) (imm : BitVec 12),
    field w 0 7 = 0b0100011 → field w 12 3 = f3 → field w 15 5 = rs1.val → field w 20 5 = rs2.val →
      field w 25 7 = field imm.toNat 5 7 → field w 7 5 = field imm.toNat 0 5 →
      decodeTableWord 32 w = some (k rs2 rs1 imm)

/-- B format on opcode 1100011 (R147): bits 11, 10, [9:4], [3:0] of the field at 31, 7, [30:25], [11:8]. -/
def EncodedB (f3 : Nat) (k : Reg → Reg → BitVec 12 → Instr) : Prop :=
  ∀ w < 2 ^ 32, ∀ (rs1 rs2 : Reg) (imm : BitVec 12),
    field w 0 7 = 0b1100011 → field w 12 3 = f3 → field w 15 5 = rs1.val → field w 20 5 = rs2.val →
      field w 31 1 = field imm.toNat 11 1 → field w 7 1 = field imm.toNat 10 1 → field w 25 6 = field imm.toNat 4 6 →
      field w 8 4 = field imm.toNat 0 4 → decodeTableWord 32 w = some (k rs1 rs2 imm)

/-- U format (R148). -/
def EncodedU (op : Nat) (k : Reg → BitVec 20 → Instr) : Prop :=
  ∀ w < 2 ^ 32, ∀ (rd : Reg) (imm : BitVec 20),
    field w 0 7 = op → field w 7 5 = rd.val → field w 12 20 = imm.toNat → decodeTableWord 32 w = some (k rd imm)

/-- J format on opcode 1101111 (R149): bits 19, [18:11], 10, [9:0] of the field at 31, [19:12], 20, [30:21]. -/
def EncodedJ (k : Reg → BitVec 20 → Instr) : Prop :=
  ∀ w < 2 ^ 32, ∀ (rd : Reg) (imm : BitVec 20),
    field w 0 7 = 0b1101111 → field w 7 5 = rd.val → field w 31 1 = field imm.toNat 19 1 →
      field w 12 8 = field imm.toNat 11 8 → field w 20 1 = field imm.toNat 10 1 → field w 21 10 = field imm.toNat 0 10 →
      decodeTableWord 32 w = some (k rd imm)

/-- CSR format with an immediate source on opcode 1110011 (R150). -/
def EncodedCsrImm (f3 : Nat) (k : Reg → BitVec 5 → BitVec 12 → Instr) : Prop :=
  ∀ w < 2 ^ 32, ∀ (rd : Reg) (imm : BitVec 5) (csr : BitVec 12),
    field w 0 7 = 0b1110011 → field w 12 3 = f3 → field w 7 5 = rd.val → field w 15 5 = imm.toNat →
      field w 20 12 = csr.toNat → decodeTableWord 32 w = some (k rd imm csr)

/-- CI format (R156, R157): funct3 and quadrant `op`, the six-bit immediate at 12 and [6:2]. -/
def EncodedCi (f3 op : Nat) (k : Reg → BitVec 6 → Instr) (ok : Reg → BitVec 6 → Prop) : Prop :=
  ∀ p < 2 ^ 16, ∀ (rd : Reg) (imm : BitVec 6),
    ok rd imm → field p 0 2 = op → field p 13 3 = f3 → field p 7 5 = rd.val → field p 12 1 = field imm.toNat 5 1 →
      field p 2 5 = field imm.toNat 0 5 → decodeTableWord 16 p = some (k rd imm)

/-- CR format (R156): funct4, two full register fields, quadrant 2; neither is x0. -/
def EncodedCr (f4 : Nat) (k : Reg → Reg → Instr) : Prop :=
  ∀ p < 2 ^ 16, ∀ rd rs2 : Reg,
    rd ≠ 0 → rs2 ≠ 0 → field p 0 2 = 2 → field p 12 4 = f4 → field p 7 5 = rd.val → field p 2 5 = rs2.val →
      decodeTableWord 16 p = some (k rd rs2)

/-- CIW format with the immediate of C.ADDI4SPN (R156, R158): bits [3:2], [7:4], 0, 1 of a quarter of it at [12:11],
[10:7], 6, 5. -/
def EncodedCiw (k : CReg → BitVec 8 → Instr) : Prop :=
  ∀ p < 2 ^ 16, ∀ (rd : CReg) (imm : BitVec 8),
    imm ≠ 0 → field p 0 2 = 0 → field p 13 3 = 0 → field p 2 3 = rd.val → field p 11 2 = field imm.toNat 2 2 →
      field p 7 4 = field imm.toNat 4 4 → field p 6 1 = field imm.toNat 0 1 → field p 5 1 = field imm.toNat 1 1 →
      decodeTableWord 16 p = some (k rd imm)

/-- C.ADDI16SP (R156, R158): bits 5, 0, 2, [4:3], 1 of a sixteenth of the immediate at 12, 6, 5, [4:3], 2. -/
def EncodedAddi16sp (k : BitVec 6 → Instr) : Prop :=
  ∀ p < 2 ^ 16, ∀ imm : BitVec 6,
    imm ≠ 0 → field p 0 2 = 1 → field p 13 3 = 0b011 → field p 7 5 = 2 → field p 12 1 = field imm.toNat 5 1 →
      field p 6 1 = field imm.toNat 0 1 → field p 5 1 = field imm.toNat 2 1 → field p 3 2 = field imm.toNat 3 2 →
      field p 2 1 = field imm.toNat 1 1 → decodeTableWord 16 p = some (k imm)

/-- CB format of shifts and C.ANDI (R156, R158): bits [11:10] are `f2`, the six-bit immediate at 12 and [6:2]. -/
def EncodedCbAlu (f2 : Nat) (k : CReg → BitVec 6 → Instr) (ok : BitVec 6 → Prop) : Prop :=
  ∀ p < 2 ^ 16, ∀ (rd : CReg) (imm : BitVec 6),
    ok imm → field p 0 2 = 1 → field p 13 3 = 0b100 → field p 10 2 = f2 → field p 7 3 = rd.val →
      field p 12 1 = field imm.toNat 5 1 → field p 2 5 = field imm.toNat 0 5 → decodeTableWord 16 p = some (k rd imm)

/-- CA format (R156): bits [15:10] are `f6`, bits [6:5] are `f2`. -/
def EncodedCa (f6 f2 : Nat) (k : CReg → CReg → Instr) : Prop :=
  ∀ p < 2 ^ 16, ∀ rd rs2 : CReg,
    field p 0 2 = 1 → field p 10 6 = f6 → field p 5 2 = f2 → field p 7 3 = rd.val → field p 2 3 = rs2.val →
      decodeTableWord 16 p = some (k rd rs2)

/-- CU format (R156). -/
def EncodedCu (funct3 : Nat) (k : CReg → Instr) : Prop :=
  ∀ p < 2 ^ 16, ∀ rd : CReg,
    field p 0 2 = 1 → field p 10 6 = 0b100111 → field p 5 2 = 0b11 → field p 2 3 = funct3 → field p 7 3 = rd.val →
      decodeTableWord 16 p = some (k rd)

/-- A word of custom-1, custom-3, or of custom-2 outside the preset instructions (30_encoding.md R165, 45_coprocessor.md R395). -/
def CustomWord (w : Nat) : Prop :=
  field w 0 7 = 0b0101011 ∨ field w 0 7 = 0b1111011 ∨
    field w 0 7 = 0b1011011 ∧
      (field w 12 3 = 0 ∧ field w 25 5 ∉ [0, 1, 2, 3] ∨ field w 12 3 = 1 ∧ field w 25 5 ∉ [0, 1, 2] ∨
        2 ≤ field w 12 3 ∧ field w 12 3 ≤ 6)

/-- The positions of the highest bits of the five-bit register fields of an instruction's format (R142 to R161). -/
def highRegBits : Instr → List Nat
  | .add .. | .and .. | .or .. | .sll .. | .slt .. | .sltu .. | .sra .. | .srl .. | .sub .. | .xor .. | .mul ..
  | .mulh .. | .mulhsu .. | .mulhu .. | .sh1add .. | .sh2add .. | .sh3add .. | .andn .. | .orn .. | .xnor .. | .max ..
  | .maxu .. | .min .. | .minu .. | .rol .. | .ror .. | .bclr .. | .bext .. | .binv .. | .bset .. | .cpx6 .. => [11, 19, 24]
  | .addi .. | .andi .. | .csrrc .. | .csrrs .. | .csrrw .. | .jalr .. | .lb .. | .lbu .. | .lh .. | .lhu .. | .lw ..
  | .ori .. | .slli .. | .slti .. | .sltiu .. | .srai .. | .srli .. | .xori .. | .clz .. | .ctz .. | .cpop .. | .sextB ..
  | .sextH .. | .zextH .. | .rori .. | .orcB .. | .rev8 .. | .bclri .. | .bexti .. | .binvi .. | .bseti .. | .cpx2 ..
  | .cpx3 .. | .cpx9 .. => [11, 19]
  | .beq .. | .bge .. | .bgeu .. | .blt .. | .bltu .. | .bne .. | .sb .. | .sh .. | .sw .. | .cpx4 .. | .cpx5 .. => [19, 24]
  | .auipc .. | .csrrci .. | .csrrsi .. | .csrrwi .. | .jal .. | .lui .. => [11]
  | .cpx0 .. | .cpx1 .. => [19]
  | .cAdd .. | .cMv .. => [11, 6]
  | .cAddi .. | .cAddi16sp .. | .cJalr .. | .cJr .. | .cLi .. | .cLui .. | .cLwsp .. | .cSlli .. => [11]
  | .cSwsp .. => [6]
  | .ebreak | .ecall | .fence .. | .fenceI | .mret | .wfi | .cAddi4spn .. | .cAnd .. | .cAndi .. | .cBeqz .. | .cBnez ..
  | .cEbreak | .cJ .. | .cJal .. | .cLw .. | .cNop | .cOr .. | .cSrai .. | .cSrli .. | .cSw .. | .cSub .. | .cXor ..
  | .cLbu .. | .cLhu .. | .cLh .. | .cSb .. | .cSh .. | .cZextB .. | .cSextB .. | .cZextH .. | .cSextH .. | .cNot ..
  | .cMul .. | .cmPush .. | .cmPop .. | .cmPopretz .. | .cmPopret .. | .cmMvsa01 .. | .cmMva01s .. | .cmJt ..
  | .cmJalt .. => []

/-! ## Frames -/

/-- Every general register outside the list reads as before. -/
def SameRegsBut (l : List Reg) (s t : State) : Prop := ∀ r : Reg, r ∉ l → t.x r = s.x r

/-- Every byte of main memory outside the addresses `P` reads as before. -/
def SameMemBut (P : Nat → Prop) (s t : State) : Prop :=
  ∀ a : Nat, ¬ P a → Memory.readByte t.mem a = Memory.readByte s.mem a

/-- Every byte of main memory reads as before. -/
def SameMem (s t : State) : Prop := SameMemBut (fun _ => False) s t

/-- The address is one of the `n` bytes from `a` on. -/
def InBytes (a n : Nat) (b : Nat) : Prop := a ≤ b ∧ b < a + n

/-- Everything but the general registers, the pc, memory, the stale marks and minstret is as before: the build, every CSR,
mcountinhibit and mcycle, the debug unit, CLINT and CLIC, the pins, the low-power state, the ghost stack, the
histories of the coprocessors and the devices and the model's own fields. -/
def SameSystem (s t : State) : Prop :=
  t.cfg = s.cfg ∧ t.csr = s.csr ∧ t.ctr.mcy = s.ctr.mcy ∧ t.ctr.mir = s.ctr.mir ∧ t.ctr.mcycle = s.ctr.mcycle ∧
    t.dbg = s.dbg ∧ t.clic = s.clic ∧ t.pins = s.pins ∧ t.sleeping = s.sleeping ∧ t.trapStack = s.trapStack ∧
    t.cop = s.cop ∧ t.devices = s.devices ∧ t.inputs = s.inputs ∧ t.tick = s.tick

/-- minstret counts retired instructions in `s`: the counters exist, MIR = 0, and not in debug mode with STOPCOUNT = 1
(10_state.md R49). -/
def Counting (s : State) : Prop :=
  s.cfg.hasCounters = true ∧ s.ctr.mir = false ∧ (s.dbg.debugMode = false ∨ s.dbg.stopcount = false)

/-- minstret has counted one retired instruction, where it counts (10_state.md R49). -/
def CountedOne (s t : State) : Prop :=
  (Counting s → t.ctr.minstret = s.ctr.minstret + 1) ∧ (¬ Counting s → t.ctr.minstret = s.ctr.minstret)

/-- The whole frame of an instruction that writes only the registers of the list and the pc. -/
def RegisterFrame (l : List Reg) (s t : State) : Prop :=
  SameRegsBut l s t ∧ SameMem s t ∧ t.stale = s.stale ∧ SameSystem s t ∧ CountedOne s t

/-- What a register write leaves in `rd`: the value, or 0 for x0 (10_state.md R21). -/
def written (rd : Reg) (v : Word) : Word := if rd = 0 then 0 else v

/-! ## The shapes of an instruction's effect -/

/-- The instruction of `len` bytes completes: it writes `v` to `rd`, the next instruction follows it, nothing else changes. -/
def Writes (i : Instr) (s : State) (rd : Reg) (v len : Word) : Prop :=
  ∃ t, exec i s = .next t ∧ t.x rd = written rd v ∧ t.pc = normPc (s.pc + len) ∧ RegisterFrame [rd] s t

/-- The instruction completes and goes on at `target`; it writes no register. -/
def GoesTo (i : Instr) (s : State) (target : Word) : Prop :=
  ∃ t, exec i s = .next t ∧ t.pc = normPc target ∧ RegisterFrame [] s t

/-- The instruction completes, links `link` in `rd` and goes on at `target`. -/
def Links (i : Instr) (s : State) (rd : Reg) (link target : Word) : Prop :=
  ∃ t, exec i s = .next t ∧ t.x rd = written rd link ∧ t.pc = normPc target ∧ RegisterFrame [rd] s t

/-- The `n` bytes from `a` on hold the low bytes of `v`, low byte first. -/
def HoldsBytes (t : State) (a n : Nat) (v : Word) : Prop :=
  ∀ k < n, Memory.readByte t.mem (a + k) = v.extractLsb' (8 * k) 8

/-- The instruction of `len` bytes completes: it stores the low bytes of `v` at `a` and changes nothing else but the pc,
minstret and the marks of the stored bytes. -/
def Stores (i : Instr) (s : State) (w : Width) (a v len : Word) : Prop :=
  ∃ t, exec i s = .next t ∧ HoldsBytes t (mainAddr a) w.bytes v ∧
    SameMemBut (InBytes (mainAddr a) w.bytes) s t ∧ SameRegsBut [] s t ∧ t.pc = normPc (s.pc + len) ∧
    (∀ b, b ∈ t.stale ↔ b ∈ s.stale ∨ InBytes (mainAddr a) w.bytes b) ∧ SameSystem s t ∧ CountedOne s t

/-- The instruction raises the exception with this code, and does nothing else (60_exceptions.md R410, R416). -/
def Traps (i : Instr) (s : State) (code : Nat) : Prop := exec i s = .next (raise s code)

/-- The little-endian value of the bytes at `a` (20_memory.md R111). -/
def leValue (m : List Host.Cell) (a : Nat) : Nat → Nat
  | 0 => 0
  | n + 1 => (Memory.readByte m a).toNat + 256 * leValue m (a + 1) n

/-! ## Conditions on the state and the operands -/

/-- The pc value needs no open bit: it lies below 2^21 (10_state.md R28). -/
def LowPc (v : Word) : Prop := v.toNat < mainSize

/-- A load of this width at this address is answered by memory: aligned, outside the TCIP window and the
instruction-bus region, and mapped to memory (20_memory.md R101 to R108). -/
def LoadsFromMemory (s : State) (w : Width) (a : Word) : Prop :=
  misaligned w a = false ∧ inTcip a = false ∧ inIbus s.cfg (mainAddr a) = false ∧
    response s .load (mainAddr a) = .memory

/-- A store of this width at this address is taken by memory. -/
def StoresToMemory (s : State) (w : Width) (a : Word) : Prop :=
  misaligned w a = false ∧ inTcip a = false ∧ inIbus s.cfg (mainAddr a) = false ∧
    response s .store (mainAddr a) = .memory

/-- A load at this address is answered by a device: aligned, outside the TCIP window and the instruction-bus region, and
mapped to a device (20_memory.md R102). -/
def LoadsFromDevice (s : State) (w : Width) (a : Word) : Prop :=
  misaligned w a = false ∧ inTcip a = false ∧ inIbus s.cfg (mainAddr a) = false ∧
    response s .load (mainAddr a) = .device

/-- A store at this address is taken by a device. -/
def StoresToDevice (s : State) (w : Width) (a : Word) : Prop :=
  misaligned w a = false ∧ inTcip a = false ∧ inIbus s.cfg (mainAddr a) = false ∧
    response s .store (mainAddr a) = .device

/-- A load at this address is answered OKAY, by memory or by a device. -/
def LoadsFromBus (s : State) (w : Width) (a : Word) : Prop := LoadsFromMemory s w a ∨ LoadsFromDevice s w a

/-- A store at this address is answered OKAY, by memory or by a device. -/
def StoresToBus (s : State) (w : Width) (a : Word) : Prop := StoresToMemory s w a ∨ StoresToDevice s w a

/-- The record of a read of a device. -/
def deviceQuery (k : AccessKind) (w : Width) (a : Word) : DeviceAccess :=
  { kind := k, addr := mainAddr a, bytes := w.bytes, data := 0 }

/-- The value a device answers once the accesses `l` have been made, this one first: a free value of the step and of `l`
(notes/assumptions/6.md), cut to the width. -/
def deviceValue (s : State) (w : Width) (l : List DeviceAccess) : Nat :=
  (Config.deviceAnswer s.tick l).toNat % 2 ^ (8 * w.bytes)

/-- A jump table entry can be read: outside the TCIP window, mapped to memory for fetch, not stored to since FENCE.I. -/
def TableReadable (s : State) (a : Word) : Prop :=
  inTcip a = false ∧ response s .fetch (mainAddr a) = .memory ∧ isStale s.stale (mainAddr a) 4 = false

/-! ## Loads and stores -/

/-- What a load of width `w` at `a` into `rd` does, in every case (40_rv32e_base.md R251, 20_memory.md R101 to R109):
it completes where memory, a TCIP register or a device answers, raises exception 4 or 5, or stops by name. What a device
answers is a free value; the device has been asked once (R116). -/
def LoadRule (i : Instr) (s : State) (len : Word) (w : Width) (rd : Reg) (a : Word) (ext : Nat → Word) : Prop :=
  (LoadsFromMemory s w a → Writes i s rd (ext (leValue s.mem (mainAddr a) w.bytes)) len) ∧
    (misaligned w a = true → Traps i s 4) ∧
    (misaligned w a = false → inTcip a = true →
      match tcipRead s w a.toNat with
      | some v => Writes i s rd (ext v.toNat) len
      | none => exec i s = .refused .tcipAccess) ∧
    (misaligned w a = false → inTcip a = false → inIbus s.cfg (mainAddr a) = true → exec i s = .fault .ibusData) ∧
    (misaligned w a = false → inTcip a = false → inIbus s.cfg (mainAddr a) = false →
      response s .load (mainAddr a) = .error → Traps i s 5) ∧
    (LoadsFromDevice s w a →
      ∃ t, exec i s = .next t ∧ t.devices = deviceQuery .load w a :: s.devices ∧
        t.x rd = written rd (ext (deviceValue s w t.devices)) ∧ t.pc = normPc (s.pc + len) ∧
        RegisterFrame [rd] { s with devices := t.devices } t)

/-- What a store of the low bytes of `v` at `a` does, in every case (R251): it completes in memory, in a TCIP register or
in a device, raises exception 6 or 7, or stops by name. -/
def StoreRule (i : Instr) (s : State) (len : Word) (w : Width) (a v : Word) : Prop :=
  (StoresToMemory s w a → Memory.wf s.mem → Stores i s w a v len) ∧
    (misaligned w a = true → Traps i s 6) ∧
    (misaligned w a = false → inTcip a = true → ∀ t, tcipWrite s w a.toNat v = .ok t →
      ∃ u, exec i s = .next u ∧ u.clic = t.clic ∧ u.pc = normPc (s.pc + len) ∧ SameRegsBut [] s u ∧ SameMem s u ∧
        u.stale = s.stale ∧ SameSystem { s with clic := t.clic } u ∧ CountedOne s u) ∧
    (misaligned w a = false → inTcip a = true → ∀ r, tcipWrite s w a.toNat v = .refused r → exec i s = .refused r) ∧
    (misaligned w a = false → inTcip a = false → inIbus s.cfg (mainAddr a) = true → exec i s = .fault .ibusData) ∧
    (misaligned w a = false → inTcip a = false → inIbus s.cfg (mainAddr a) = false →
      response s .store (mainAddr a) = .error → Traps i s 7) ∧
    (StoresToDevice s w a →
      ∃ t, exec i s = .next t ∧
        t.devices = { deviceQuery .store w a with data := BitVec.ofNat 32 (v.toNat % 2 ^ (8 * w.bytes)) } :: s.devices ∧
        (∀ b, b ∈ t.stale ↔ b ∈ s.stale ∨ InBytes (mainAddr a) w.bytes b) ∧ t.pc = normPc (s.pc + len) ∧
        RegisterFrame [] { s with devices := t.devices, stale := t.stale } t)

/-- The store completes: it changes CLINT and CLIC registers, the pc and minstret, and nothing else. -/
def StoresToTcip (i : Instr) (s t : State) : Prop :=
  exec i s = .next t ∧ t.pc = normPc (s.pc + 4) ∧ SameRegsBut [] s t ∧ SameMem s t ∧ t.stale = s.stale ∧
    SameSystem { s with clic := t.clic } t ∧ CountedOne s t

/-! ## Compressed instructions and their expansions (43_zca.md R310) -/

/-- The compressed `c` and the 32-bit `f` retire and leave the same state but for the pc, which `c` moves by 2. -/
def RetiresLike (c f : Instr) (s : State) : Prop :=
  ∃ t u, exec c s = .next t ∧ exec f s = .next u ∧ u.pc = normPc (s.pc + 4) ∧ t = { u with pc := normPc (s.pc + 2) }

/-- Both retire so, or neither does and they do the same: they raise the exception of an access, or stop. -/
def AccessesLike (c f : Instr) (s : State) : Prop :=
  RetiresLike c f s ∨
    (exec c s = exec f s ∧ ∀ t, exec f s = .next t → ∃ code ∈ [4, 5, 6, 7], t = raise s code)

/-! ## Values -/

/-- The low 8 bits of `n`, sign-extended. -/
def signed8 (n : Nat) : Word := if n % 2 ^ 8 < 2 ^ 7 then BitVec.ofNat 32 (n % 2 ^ 8) else BitVec.ofNat 32 (n % 2 ^ 8 + (2 ^ 32 - 2 ^ 8))

/-- The low 16 bits of `n`, sign-extended. -/
def signed16 (n : Nat) : Word :=
  if n % 2 ^ 16 < 2 ^ 15 then BitVec.ofNat 32 (n % 2 ^ 16) else BitVec.ofNat 32 (n % 2 ^ 16 + (2 ^ 32 - 2 ^ 16))

/-- The low 8 bits of `n`. -/
def unsigned8 (n : Nat) : Word := BitVec.ofNat 32 (n % 2 ^ 8)

/-- The low 16 bits of `n`. -/
def unsigned16 (n : Nat) : Word := BitVec.ofNat 32 (n % 2 ^ 16)

/-- Two's-complement value of an integer. -/
def wordOf (n : Int) : Word := BitVec.ofInt 32 n

/-- 1 where the proposition holds, else 0. -/
def bitOf (p : Prop) [Decidable p] : Word := if p then 1 else 0

/-! ## CSR instructions -/

/-- A write of the CSR by a CSR instruction is carried out (10_state.md R35, R57). -/
def Writable (s : State) (c : CsrName) : Prop :=
  match c with
  | .mstatus | .mscratch | .mscratchcswl | .mepc | .mcause | .mxstatus | .mexstatus => True
  | .mtvec | .mtvt | .jvt => s.cfg.vecFixed = false
  | .mcountinhibit | .mcycle | .minstret => s.cfg.hasCounters = true
  | .tselect | .tcontrol | .mcontext | .mhaltcause => s.hasDebug = true
  | .tdata1 | .tdata2 | .tdata3 => s.hasDebug = true ∧ ((selected s).dmode = false ∨ s.dbg.debugMode = true)
  | .dcsr | .dpc | .dscratch0 | .dscratch1 => s.dbg.debugMode = true
  | .misa | .mcounteren | .mip | .mclicbase | .tinfo | .mhcr | .mraddr
  | .mvendorid | .marchid | .mimpid | .mhartid | .mcpuid | .mdbginfo | .mpcfifo => False

/-- A read of the CSR by a CSR instruction is carried out (R32, R35). -/
def Readable (s : State) (c : CsrName) : Prop :=
  match c with
  | .mcounteren | .mcountinhibit | .mcycle | .minstret => s.cfg.hasCounters = true
  | .tselect | .tdata1 | .tdata2 | .tdata3 | .tinfo | .tcontrol | .mcontext | .mhaltcause | .mdbginfo | .mpcfifo =>
    s.hasDebug = true
  | .dcsr | .dpc | .dscratch0 | .dscratch1 => s.dbg.debugMode = true
  | .mscratchcswl => False
  | .jvt | .mstatus | .misa | .mtvec | .mtvt | .mscratch | .mepc | .mcause | .mip | .mclicbase | .mxstatus | .mhcr
  | .mraddr | .mexstatus | .mvendorid | .marchid | .mimpid | .mhartid | .mcpuid => True

/-- The CSR instruction completes (40_rv32e_base.md R240): `rd` receives the old value, `v` goes through the field rules of
the CSR, and nothing else changes but the pc and minstret. A written minstret is not counted on (92 D24,
notes/assumptions/28.md); where the write changes whether minstret counts, the count of this instruction is open
(notes/assumptions/53.md). -/
def CsrStep (i : Instr) (s : State) (rd : Reg) (c : CsrName) (v : Word) : Prop :=
  ∃ t, exec i s = .next t ∧ t.x rd = written rd (csrRead s c) ∧ t.pc = normPc (s.pc + 4) ∧
    t.csr = (csrWrite s c v).csr ∧ t.dbg = (csrWrite s c v).dbg ∧
    t.ctr.mcy = (csrWrite s c v).ctr.mcy ∧ t.ctr.mir = (csrWrite s c v).ctr.mir ∧
    t.ctr.mcycle = (csrWrite s c v).ctr.mcycle ∧ (c = .minstret → t.ctr.minstret = v) ∧
    (c ≠ .minstret → (Counting t ↔ Counting s) → CountedOne s t) ∧
    SameRegsBut [rd] s t ∧ SameMem s t ∧ t.stale = s.stale ∧ t.cfg = s.cfg ∧ t.clic = s.clic ∧ t.pins = s.pins ∧
    t.sleeping = s.sleeping ∧ t.trapStack = s.trapStack ∧ t.cop = s.cop ∧ t.devices = s.devices ∧ t.inputs = s.inputs ∧
    t.tick = s.tick

/-- The CSR instructions on `n` that write it (10_state.md R35). -/
def writingForms (rd rs1 : Reg) (imm : BitVec 5) (n : BitVec 12) : List Instr :=
  [.csrrw rd rs1 n, .csrrwi rd imm n] ++ (if rs1 = 0 then [] else [.csrrs rd rs1 n, .csrrc rd rs1 n]) ++
    (if imm = 0 then [] else [.csrrsi rd imm n, .csrrci rd imm n])

/-- The CSR instructions on `n` that only read it. -/
def readingForms (rd : Reg) (n : BitVec 12) : List Instr := [.csrrs rd 0 n, .csrrc rd 0 n, .csrrsi rd 0 n, .csrrci rd 0 n]

/-! ## The stack instructions (44_zcb_zcmp_zcmt.md R362 to R366) -/

/-- The k-th word below `top`, counted from 0. -/
def stackSlot (top : Word) (k : Nat) : Word := top - 4 * BitVec.ofNat 32 (k + 1)

/-- The bytes of those of the first `n` words below `top` whose stores memory takes. -/
def InSlots (s : State) (top : Word) (n : Nat) (b : Nat) : Prop :=
  ∃ k < n, response s .store (mainAddr (stackSlot top k)) = .memory ∧ InBytes (mainAddr (stackSlot top k)) 4 b

/-- The devices' history after loads of the first `n` words below `top`. -/
def slotQueries (s : State) (top : Word) : Nat → List DeviceAccess
  | 0 => s.devices
  | n + 1 =>
    if response s .load (mainAddr (stackSlot top n)) = .device then
      deviceQuery .load .word (stackSlot top n) :: slotQueries s top n
    else slotQueries s top n

/-- The devices' history after stores of the first `n` registers of the list to the words below `top`. -/
def slotRecords (s : State) (l : List Reg) (top : Word) : Nat → List DeviceAccess
  | 0 => s.devices
  | n + 1 =>
    if response s .store (mainAddr (stackSlot top n)) = .device then
      { deviceQuery .store .word (stackSlot top n) with data := s.x (l[n]?.getD 0) } :: slotRecords s l top n
    else slotRecords s l top n

/-- What a pop loads from the k-th word below `top`: the little-endian word there, or what a device answers. -/
def slotWord (s : State) (top : Word) (k : Nat) : Word :=
  if response s .load (mainAddr (stackSlot top k)) = .device then
    BitVec.ofNat 32 (deviceValue s .word (slotQueries s top (k + 1)))
  else BitVec.ofNat 32 (leValue s.mem (mainAddr (stackSlot top k)) 4)

/-- A pop of the list `l` from below `top` has loaded its registers, and the stack pointer is `top`. -/
def Popped (s t : State) (l : RegList) (top : Word) : Prop :=
  (∀ k r, (listRegs l)[k]? = some r → t.x r = slotWord s top k) ∧ t.x spReg = top ∧
    t.devices = slotQueries s top (listRegs l).length

/-! ## Steps -/

/-- The bytes at the pc and behind it, as a fetch reads them (20_memory.md R110). -/
def fetchBytes (s : State) : List Byte :=
  let a := mainAddr s.pc
  let b := mainOffset a 2
  [Memory.readByte s.mem a, Memory.readByte s.mem (a + 1), Memory.readByte s.mem b, Memory.readByte s.mem (b + 1)]

/-- A parcel at a main-space address can be fetched: memory answers, and nothing there was stored since FENCE.I. -/
def ParcelFetchable (s : State) (a : Nat) : Prop :=
  response s .fetch a = .memory ∧ isStale s.stale a 2 = false

/-- The bytes at the pc begin a 32-bit instruction (30_encoding.md R141). -/
def WideAtPc (s : State) : Prop :=
  isWide (parcel (Memory.readByte s.mem (mainAddr s.pc)) (Memory.readByte s.mem (mainAddr s.pc + 1))) = true

/-- The instruction at the pc can be fetched: its first parcel, and its second where the first asks for one. What the bus
answers belongs to a step, so the state is the one with the inputs of the step sampled. -/
def CanFetch (s : State) : Prop :=
  inTcip s.pc = false ∧ ParcelFetchable s (mainAddr s.pc) ∧
    (WideAtPc s → ParcelFetchable s (mainOffset (mainAddr s.pc) 2))

/-- The bus answers the fetch of the instruction at the pc with ERROR: that of its first parcel, or that of its second one
(20_memory.md R108, R110). -/
def FetchError (s : State) : Prop :=
  inTcip s.pc = false ∧
    (response s .fetch (mainAddr s.pc) = .error ∨
      (ParcelFetchable s (mainAddr s.pc) ∧ WideAtPc s ∧ response s .fetch (mainOffset (mainAddr s.pc) 2) = .error))

/-- The build is one the manual allows (20_memory.md R104), and no reset comes in this step (70_reset_and_hazards.md R480). -/
def Undisturbed (s : State) : Prop := s.cfg.wf = true ∧ (nextInput s).reset = none

/-- The hart runs: no reset, debug mode or debug request, and no lockup (60_exceptions.md R416, R466). -/
def Running (s : State) : Prop :=
  Undisturbed s ∧ s.dbg.debugMode = false ∧ (nextInput s).request = none ∧ s.csr.lockup = false

/-- A single step during which no interrupt is taken (10_state.md R63; R430, R472). -/
def SteppingMasked (s : State) : Prop := s.hasDebug = true ∧ s.dbg.step = true ∧ s.dbg.stepie = false

/-- Interrupts are taken: mstatus.MIE = 1 and, where the hart single-steps, dcsr.STEPIE = 1 (R421, R430). -/
def TakesInterrupts (s : State) : Prop :=
  s.csr.mie = true ∧ (s.hasDebug = false ∨ s.dbg.step = false ∨ s.dbg.stepie = true)

/-- No interrupt is taken in this step: MIE is 0, or a single step masks interrupts, or no source is pending and enabled once
the inputs are sampled (R421, R430). -/
def NoInterrupt (s : State) : Prop := s.csr.mie = false ∨ SteppingMasked s ∨ winner (sample s (nextInput s)) = none

/-- Nothing but an instruction happens in a step of an awake hart: it runs, no interrupt is taken, and no trigger is armed
(R416, R421, R466, R469). -/
def Unhindered (s : State) : Prop := Running s ∧ NoInterrupt s ∧ s.dbg.triggers.any (armed s) = false

/-- Nothing outside or between instructions happens in this step: the hart is awake and unhindered (R460). -/
def Quiet (s : State) : Prop := Unhindered s ∧ s.sleeping = false

/-- The step of `s` runs at `u` what stands at the pc: where it can be fetched, the instruction its bytes decode to, or what
bytes that are no instruction do; exception 1 where the fetch is answered by ERROR. The single-step rule follows. -/
def RunsDecoded (s u : State) : Prop :=
  (CanFetch u →
    (∀ i, decode (fetchBytes s) = .ok i → step s = afterInstr (exec i u)) ∧
    ∀ e, decode (fetchBytes s) = .error e → step s = afterInstr (execReject u e)) ∧
  (FetchError u → step s = afterInstr (.next (raise u 1)))

/-- The debug unit `d` after a debug entry (60_exceptions.md R466): debug mode, dpc and the two cause fields; the triggers,
tselect, tcontrol, mcontext, the rest of dcsr and the scratch registers are kept. -/
def haltedUnit (d : DebugUnit) (pc : Word) (cause : BitVec 3) (haltcause : Word) : DebugUnit :=
  { d with debugMode := true, dpc := pc, cause := cause, mhaltcause := haltcause }

/-- `t` is `u` halted (R466): no instruction is executed, dpc holds the address of the next one, PRV reads 3, the lockup
output is low (R417), and nothing else changes. -/
def HaltedFrom (u t : State) (cause : BitVec 3) (haltcause : Word) : Prop :=
  t.dbg = haltedUnit u.dbg u.pc cause haltcause ∧ csrRead t .dpc = u.pc ∧ (csrRead t .dcsr).extractLsb' 6 3 = cause ∧
    (csrRead t .dcsr).extractLsb' 0 2 = 3 ∧ csrRead t .mhaltcause = haltcause ∧ t.pc = u.pc ∧ t.sleeping = false ∧
    padLockup t = false ∧ SameRegsBut [] u t ∧ SameMem u t ∧ t.stale = u.stale ∧ t.ctr = u.ctr ∧
    SameSystem { u with dbg := t.dbg, sleeping := false } t

/-- The step halts the hart: nothing changes but by that and by sampling the inputs. -/
def Halts (s : State) (cause : BitVec 3) (haltcause : Word) : Prop :=
  ∃ t, step s = .next t ∧ HaltedFrom (sample s (nextInput s)) t cause haltcause ∧ t.pc = s.pc ∧ SameRegsBut [] s t ∧
    SameMem s t ∧ t.stale = s.stale ∧ t.ctr.minstret = s.ctr.minstret

/-- The hart is halted, and no reset comes in this step. -/
def Halted (s : State) : Prop := Undisturbed s ∧ s.dbg.debugMode = true

/-! ## The invariant -/

/-- A source that is not an edge source keeps no latch; it is not falling-edge either, and sources 3 and 7 are level
sources (60_exceptions.md R446, R449, R420). -/
def ClicSource.legal (id : Nat) (x : ClicSource) : Prop :=
  (x.edge = false → x.latch = false ∧ x.falling = false) ∧ (id = 3 ∨ id = 7 → x.edge = false)

/-- A trigger has a type its kind allows (10_state.md R57). -/
def legalTrigger (t : Trigger) : Prop :=
  match t.kind with
  | .mcontrol => t.type = 2
  | .configurable => t.type = 3 ∨ t.type = 4 ∨ t.type = 5

/-- What every step keeps: memory in canonical form; pc and mepc even (10_state.md R27, R43) and as PC_HIGH_POLICY
holds them (R28); LPMD never 2'b10 or 2'b11 (R53); legal CLIC sources; legal triggers and a selected one that exists. -/
structure Inv (s : State) : Prop where
  mem : Memory.wf s.mem
  pcEven : s.pc.getLsbD 0 = false
  pcHeld : normPc s.pc = s.pc
  mepcEven : s.csr.mepc.getLsbD 0 = false
  mepcHeld : normPc s.csr.mepc = s.csr.mepc
  lpmd : s.csr.lpmd = 0 ∨ s.csr.lpmd = 1
  sources : ∀ i : Fin 128, ClicSource.legal i.val s.clic.sources[i]
  triggers : ∀ t ∈ s.dbg.triggers, legalTrigger t
  tselect : s.dbg.triggers ≠ [] → s.dbg.tselect < s.dbg.triggers.length

end Sys2Proof.Machine
end

