-- ==== Sys2Proof/Certificates/Slice0/Obligations.lean ====
section
/-!
DEFINITION. The statements for the provers.
"General knowledge" in a docstring: the spec marks the pseudocode or the encoding `[from general knowledge, not in source]`.
-/

open Sys2Proof Sys2Proof.Machine

/-! ## Encodings (30_encoding.md) -/

/-- Decoding the encoding of a well-formed instruction gives it back, with every operand at every value. -/
def Obligations.DecodeOfEncode : Prop :=
  ∀ i : Instr, i.wf = true → decode (encodeBytes i) = .ok i

/-- Bytes that decode to an instruction are that instruction's encoding, and it is well-formed: no bit is dropped. -/
def Obligations.EncodeOfDecode : Prop :=
  ∀ (l : List Byte) (i : Instr), decode l = .ok i → i.wf = true ∧ encodeBytes i = l.take i.length

/-- R161: a five-bit register field of 16 to 31 (its highest bit is set) makes the instruction illegal, whatever its other
fields; a step on it raises exception 2. -/
def Obligations.HighRegisterFieldsAreIllegal : Prop :=
  (∀ (i : Instr) (l : List Nat), l ≠ [] → l.Sublist (highRegBits i) →
      decode (leBytes i.length (encode i + (l.map fun k => 2 ^ k).sum)) = .error .illegal) ∧
    ∀ s : State, execReject s .illegal = .next (raise s 2)

/-- Words written out from the encodings of one instruction of each family. -/
def Obligations.SampleWordsDecode : Prop :=
  decodeTableWord 32 0x007302B3 = some (.add 5 6 7) ∧ decodeTableWord 32 0x02E787B3 = some (.mul 15 15 14) ∧
    decodeTableWord 32 0x60031293 = some (.clz 5 6) ∧ decodeTableWord 32 0xFE53AE23 = some (.sw 5 7 0xFFC) ∧
    decodeTableWord 32 0x340312F3 = some (.csrrw 5 6 0x340) ∧ decodeTableWord 16 0x929A = some (.cAdd 5 6) ∧
    decodeTableWord 16 0x80E0 = some (.cLbu 0 1 3) ∧ decodeTableWord 16 0xB866 = some (.cmPush .raS0S1 1) ∧
    decodeTableWord 16 0xA082 = some (.cmJalt 32) ∧ decodeTableWord 32 0x40A30ADB = some (.cpx0 1 6 0x155)

/-- R164: the encodings of features the E901 lacks are illegal. The identification of the encodings is general knowledge. So are
CM.MVSA01 and CM.MVA01S that name s2 to s7, registers the E901 lacks (10_state.md R23, the ruling C20), where R163 k and R367
say unsettled (notes/assumptions/31.md). -/
def Obligations.MissingFeatureEncodingsAreIllegal : Prop :=
  decode16 0 = .error .illegal ∧
    (∀ p < 2 ^ 16, field p 0 2 = 0 → (field p 13 3 = 1 ∨ field p 13 3 = 3 ∨ field p 13 3 = 5 ∨ field p 13 3 = 7) →
      decode16 p = .error .illegal) ∧
    (∀ p < 2 ^ 16, field p 0 2 = 2 → (field p 13 3 = 1 ∨ field p 13 3 = 3 ∨ field p 13 3 = 7) →
      decode16 p = .error .illegal) ∧
    (∀ w < 2 ^ 32, field w 0 2 = 3 →
      field w 0 7 ∉ [0x33, 0x13, 0x03, 0x23, 0x63, 0x37, 0x17, 0x6F, 0x67, 0x73, 0x0F, 0x2B, 0x5B, 0x7B] →
      decode (leBytes 4 w) = .error .illegal) ∧
    (∀ w, field w 0 7 = 0x33 → field w 25 7 = 1 → 4 ≤ field w 12 3 → decode32 w = .error .illegal) ∧
    (∀ w, field w 0 7 = 0x13 → field w 12 3 = 1 → field w 25 7 = 1 → decode32 w = .error .illegal) ∧
    (∀ w, field w 0 7 = 0x13 → field w 12 3 = 5 → (field w 25 7 = 1 ∨ field w 25 7 = 33) →
      decode32 w = .error .illegal) ∧
    (∀ w, field w 0 7 = 0x73 → field w 12 3 = 0 → w ∉ [0x00000073, 0x00100073, 0x30200073, 0x10500073] →
      decode32 w = .error .illegal) ∧
    (∀ w, field w 0 7 = 0x73 → field w 12 3 = 4 → decode32 w = .error .illegal) ∧
    (∀ w, field w 0 7 = 0x0F → 2 ≤ field w 12 3 → decode32 w = .error .illegal) ∧
    (∀ w < 2 ^ 32, field w 0 5 = 31 → decode (leBytes 4 w) = .error .illegal) ∧
    (∀ p < 2 ^ 16, field p 0 2 = 2 → field p 10 6 = 0b101011 → (field p 5 2 = 1 ∨ field p 5 2 = 3) →
      (2 ≤ field p 7 3 ∨ 2 ≤ field p 2 3) → decode16 p = .error .illegal)

/-! ## RV32E arithmetic (40_rv32e_base.md) -/

/-- R201, R237, R203, R223, R225, R229, R232, R227, R235, R233. -/
def Obligations.RegisterArithmeticResults : Prop :=
  EncodedR 0b0000000 0b000 0b0110011 .add ∧ EncodedR 0b0100000 0b000 0b0110011 .sub ∧
    EncodedR 0b0000000 0b111 0b0110011 .and ∧ EncodedR 0b0000000 0b110 0b0110011 .or ∧
    EncodedR 0b0000000 0b100 0b0110011 .xor ∧ EncodedR 0b0000000 0b010 0b0110011 .slt ∧
    EncodedR 0b0000000 0b011 0b0110011 .sltu ∧ EncodedR 0b0000000 0b001 0b0110011 .sll ∧
    EncodedR 0b0000000 0b101 0b0110011 .srl ∧ EncodedR 0b0100000 0b101 0b0110011 .sra ∧
    ∀ (s : State) (rd rs1 rs2 : Reg),
      Writes (.add rd rs1 rs2) s rd (wordOf ((s.x rs1).toNat + (s.x rs2).toNat)) 4 ∧
      Writes (.sub rd rs1 rs2) s rd (wordOf ((s.x rs1).toNat - (s.x rs2).toNat)) 4 ∧
      Writes (.and rd rs1 rs2) s rd (BitVec.ofNat 32 ((s.x rs1).toNat &&& (s.x rs2).toNat)) 4 ∧
      Writes (.or rd rs1 rs2) s rd (BitVec.ofNat 32 ((s.x rs1).toNat ||| (s.x rs2).toNat)) 4 ∧
      Writes (.xor rd rs1 rs2) s rd (BitVec.ofNat 32 ((s.x rs1).toNat ^^^ (s.x rs2).toNat)) 4 ∧
      Writes (.slt rd rs1 rs2) s rd (bitOf ((s.x rs1).toInt < (s.x rs2).toInt)) 4 ∧
      Writes (.sltu rd rs1 rs2) s rd (bitOf ((s.x rs1).toNat < (s.x rs2).toNat)) 4 ∧
      Writes (.sll rd rs1 rs2) s rd (BitVec.ofNat 32 ((s.x rs1).toNat * 2 ^ ((s.x rs2).toNat % 32))) 4 ∧
      Writes (.srl rd rs1 rs2) s rd (BitVec.ofNat 32 ((s.x rs1).toNat / 2 ^ ((s.x rs2).toNat % 32))) 4 ∧
      Writes (.sra rd rs1 rs2) s rd (wordOf ((s.x rs1).toInt / 2 ^ ((s.x rs2).toNat % 32))) 4

/-- R202, R204, R224, R226, R230, R231, R228, R236, R234. -/
def Obligations.ImmediateArithmeticResults : Prop :=
  EncodedI 0b000 0b0010011 .addi ∧ EncodedI 0b111 0b0010011 .andi ∧ EncodedI 0b110 0b0010011 .ori ∧
    EncodedI 0b100 0b0010011 .xori ∧ EncodedI 0b010 0b0010011 .slti ∧ EncodedI 0b011 0b0010011 .sltiu ∧
    EncodedShift 0b0000000 0b001 .slli ∧ EncodedShift 0b0000000 0b101 .srli ∧ EncodedShift 0b0100000 0b101 .srai ∧
    (∀ (s : State) (rd rs1 : Reg) (imm : BitVec 12),
      Writes (.addi rd rs1 imm) s rd (wordOf ((s.x rs1).toNat + imm.toInt)) 4 ∧
      Writes (.andi rd rs1 imm) s rd (s.x rs1 &&& wordOf imm.toInt) 4 ∧
      Writes (.ori rd rs1 imm) s rd (s.x rs1 ||| wordOf imm.toInt) 4 ∧
      Writes (.xori rd rs1 imm) s rd (s.x rs1 ^^^ wordOf imm.toInt) 4 ∧
      Writes (.slti rd rs1 imm) s rd (bitOf ((s.x rs1).toInt < imm.toInt)) 4 ∧
      Writes (.sltiu rd rs1 imm) s rd (bitOf ((s.x rs1).toNat < (wordOf imm.toInt).toNat)) 4) ∧
    ∀ (s : State) (rd rs1 : Reg) (shamt : BitVec 5),
      Writes (.slli rd rs1 shamt) s rd (BitVec.ofNat 32 ((s.x rs1).toNat * 2 ^ shamt.toNat)) 4 ∧
      Writes (.srli rd rs1 shamt) s rd (BitVec.ofNat 32 ((s.x rs1).toNat / 2 ^ shamt.toNat)) 4 ∧
      Writes (.srai rd rs1 shamt) s rd (wordOf ((s.x rs1).toInt / 2 ^ shamt.toNat)) 4

/-- LUI and AUIPC (R214, R205). Their encoding clauses follow the U format, which R148 restores from general knowledge. -/
def Obligations.UpperImmediateResults : Prop :=
  EncodedU 0b0110111 .lui ∧ EncodedU 0b0010111 .auipc ∧
    ∀ (s : State) (rd : Reg) (imm : BitVec 20),
      Writes (.lui rd imm) s rd (BitVec.ofNat 32 (imm.toNat * 2 ^ 12)) 4 ∧
      Writes (.auipc rd imm) s rd (BitVec.ofNat 32 (s.pc.toNat + imm.toNat * 2 ^ 12)) 4

/-- R261 to R264, in a build with a multiplier. -/
def Obligations.MultiplyResults : Prop :=
  EncodedR 0b0000001 0b000 0b0110011 .mul ∧ EncodedR 0b0000001 0b001 0b0110011 .mulh ∧
    EncodedR 0b0000001 0b010 0b0110011 .mulhsu ∧ EncodedR 0b0000001 0b011 0b0110011 .mulhu ∧
    ∀ (s : State) (rd rs1 rs2 : Reg), s.cfg.mul ≠ .none →
      Writes (.mul rd rs1 rs2) s rd (BitVec.ofNat 32 ((s.x rs1).toNat * (s.x rs2).toNat)) 4 ∧
      Writes (.mulh rd rs1 rs2) s rd (wordOf ((s.x rs1).toInt * (s.x rs2).toInt / 2 ^ 32)) 4 ∧
      Writes (.mulhsu rd rs1 rs2) s rd (wordOf ((s.x rs1).toInt * (s.x rs2).toNat / 2 ^ 32)) 4 ∧
      Writes (.mulhu rd rs1 rs2) s rd (BitVec.ofNat 32 ((s.x rs1).toNat * (s.x rs2).toNat / 2 ^ 32)) 4

/-! ## The B extension (42_b_extension.md; pseudocode and encodings are general knowledge) -/

/-- SH1ADD, SH2ADD, SH3ADD; ANDN, ORN, XNOR bit by bit; MAX, MAXU, MIN, MINU; SEXT.B, SEXT.H, ZEXT.H. -/
def Obligations.ShiftAddLogicMinMaxExtendResults : Prop :=
  EncodedR 0b0010000 0b010 0b0110011 .sh1add ∧ EncodedR 0b0010000 0b100 0b0110011 .sh2add ∧
    EncodedR 0b0010000 0b110 0b0110011 .sh3add ∧
    EncodedR 0b0100000 0b111 0b0110011 .andn ∧ EncodedR 0b0100000 0b110 0b0110011 .orn ∧
    EncodedR 0b0100000 0b100 0b0110011 .xnor ∧ EncodedR 0b0000101 0b110 0b0110011 .max ∧
    EncodedR 0b0000101 0b111 0b0110011 .maxu ∧ EncodedR 0b0000101 0b100 0b0110011 .min ∧
    EncodedR 0b0000101 0b101 0b0110011 .minu ∧ EncodedR2 0b011000000100 0b001 0b0010011 .sextB ∧
    EncodedR2 0b011000000101 0b001 0b0010011 .sextH ∧ EncodedR2 0b000010000000 0b100 0b0110011 .zextH ∧
    ∀ (s : State) (rd rs1 rs2 : Reg), s.cfg.hasB = true →
      Writes (.sh1add rd rs1 rs2) s rd (BitVec.ofNat 32 (2 * (s.x rs1).toNat + (s.x rs2).toNat)) 4 ∧
      Writes (.sh2add rd rs1 rs2) s rd (BitVec.ofNat 32 (4 * (s.x rs1).toNat + (s.x rs2).toNat)) 4 ∧
      Writes (.sh3add rd rs1 rs2) s rd (BitVec.ofNat 32 (8 * (s.x rs1).toNat + (s.x rs2).toNat)) 4 ∧
      (∃ v : Word, Writes (.andn rd rs1 rs2) s rd v 4 ∧
        ∀ i < 32, v.getLsbD i = ((s.x rs1).getLsbD i && !(s.x rs2).getLsbD i)) ∧
      (∃ v : Word, Writes (.orn rd rs1 rs2) s rd v 4 ∧
        ∀ i < 32, v.getLsbD i = ((s.x rs1).getLsbD i || !(s.x rs2).getLsbD i)) ∧
      (∃ v : Word, Writes (.xnor rd rs1 rs2) s rd v 4 ∧
        ∀ i < 32, v.getLsbD i = ((s.x rs1).getLsbD i == (s.x rs2).getLsbD i)) ∧
      Writes (.max rd rs1 rs2) s rd (wordOf (Max.max (s.x rs1).toInt (s.x rs2).toInt)) 4 ∧
      Writes (.maxu rd rs1 rs2) s rd (BitVec.ofNat 32 (Max.max (s.x rs1).toNat (s.x rs2).toNat)) 4 ∧
      Writes (.min rd rs1 rs2) s rd (wordOf (Min.min (s.x rs1).toInt (s.x rs2).toInt)) 4 ∧
      Writes (.minu rd rs1 rs2) s rd (BitVec.ofNat 32 (Min.min (s.x rs1).toNat (s.x rs2).toNat)) 4 ∧
      Writes (.sextB rd rs1) s rd (signed8 (s.x rs1).toNat) 4 ∧
      Writes (.sextH rd rs1) s rd (signed16 (s.x rs1).toNat) 4 ∧
      Writes (.zextH rd rs1) s rd (unsigned16 (s.x rs1).toNat) 4

/-- CLZ, CTZ and CPOP: the counts, by what they bound and by the number of set positions. -/
def Obligations.BitCountResults : Prop :=
  EncodedR2 0b011000000000 0b001 0b0010011 .clz ∧ EncodedR2 0b011000000001 0b001 0b0010011 .ctz ∧
    EncodedR2 0b011000000010 0b001 0b0010011 .cpop ∧
    ∀ (s : State) (rd rs1 : Reg), s.cfg.hasB = true →
      (∃ n ≤ 32, Writes (.clz rd rs1) s rd (BitVec.ofNat 32 n) 4 ∧ (s.x rs1).toNat < 2 ^ (32 - n) ∧
        (n < 32 → 2 ^ (31 - n) ≤ (s.x rs1).toNat)) ∧
      (∃ n ≤ 32, Writes (.ctz rd rs1) s rd (BitVec.ofNat 32 n) 4 ∧ (s.x rs1).toNat % 2 ^ n = 0 ∧
        (n < 32 → (s.x rs1).getLsbD n = true)) ∧
      Writes (.cpop rd rs1) s rd
        (BitVec.ofNat 32 ((List.range 32).filter fun i => (s.x rs1).getLsbD i).length) 4

/-- ROL, ROR, RORI bit by bit; ORC.B and REV8 byte by byte; the eight Zbs instructions: the one bit they act on, and the
others. -/
def Obligations.RotateByteAndSingleBitResults : Prop :=
  EncodedR 0b0110000 0b001 0b0110011 .rol ∧ EncodedR 0b0110000 0b101 0b0110011 .ror ∧
    EncodedShift 0b0110000 0b101 .rori ∧ EncodedR2 0b001010000111 0b101 0b0010011 .orcB ∧
    EncodedR2 0b011010011000 0b101 0b0010011 .rev8 ∧
    EncodedR 0b0100100 0b001 0b0110011 .bclr ∧ EncodedShift 0b0100100 0b001 .bclri ∧
    EncodedR 0b0100100 0b101 0b0110011 .bext ∧ EncodedShift 0b0100100 0b101 .bexti ∧
    EncodedR 0b0110100 0b001 0b0110011 .binv ∧ EncodedShift 0b0110100 0b001 .binvi ∧
    EncodedR 0b0010100 0b001 0b0110011 .bset ∧ EncodedShift 0b0010100 0b001 .bseti ∧
    ∀ (s : State) (rd rs1 rs2 : Reg) (shamt : BitVec 5), s.cfg.hasB = true →
      (∃ v : Word, Writes (.rol rd rs1 rs2) s rd v 4 ∧
        ∀ i < 32, v.getLsbD ((i + (s.x rs2).toNat) % 32) = (s.x rs1).getLsbD i) ∧
      (∃ v : Word, Writes (.ror rd rs1 rs2) s rd v 4 ∧
        ∀ i < 32, v.getLsbD i = (s.x rs1).getLsbD ((i + (s.x rs2).toNat) % 32)) ∧
      (∃ v : Word, Writes (.rori rd rs1 shamt) s rd v 4 ∧
        ∀ i < 32, v.getLsbD i = (s.x rs1).getLsbD ((i + shamt.toNat) % 32)) ∧
      (∃ v : Word, Writes (.orcB rd rs1) s rd v 4 ∧
        ∀ k < 4, v.extractLsb' (8 * k) 8 = if (s.x rs1).extractLsb' (8 * k) 8 = 0 then 0x00 else 0xFF) ∧
      (∃ v : Word, Writes (.rev8 rd rs1) s rd v 4 ∧
        ∀ k < 4, v.extractLsb' (8 * k) 8 = (s.x rs1).extractLsb' (8 * (3 - k)) 8) ∧
      (∃ v : Word, Writes (.bclr rd rs1 rs2) s rd v 4 ∧
        ∀ i < 32, v.getLsbD i = if i = (s.x rs2).toNat % 32 then false else (s.x rs1).getLsbD i) ∧
      (∃ v : Word, Writes (.bclri rd rs1 shamt) s rd v 4 ∧
        ∀ i < 32, v.getLsbD i = if i = shamt.toNat then false else (s.x rs1).getLsbD i) ∧
      (∃ v : Word, Writes (.binv rd rs1 rs2) s rd v 4 ∧
        ∀ i < 32, v.getLsbD i = if i = (s.x rs2).toNat % 32 then !(s.x rs1).getLsbD i else (s.x rs1).getLsbD i) ∧
      (∃ v : Word, Writes (.binvi rd rs1 shamt) s rd v 4 ∧
        ∀ i < 32, v.getLsbD i = if i = shamt.toNat then !(s.x rs1).getLsbD i else (s.x rs1).getLsbD i) ∧
      (∃ v : Word, Writes (.bset rd rs1 rs2) s rd v 4 ∧
        ∀ i < 32, v.getLsbD i = if i = (s.x rs2).toNat % 32 then true else (s.x rs1).getLsbD i) ∧
      (∃ v : Word, Writes (.bseti rd rs1 shamt) s rd v 4 ∧
        ∀ i < 32, v.getLsbD i = if i = shamt.toNat then true else (s.x rs1).getLsbD i) ∧
      Writes (.bext rd rs1 rs2) s rd (BitVec.ofNat 32 ((s.x rs1).toNat / 2 ^ ((s.x rs2).toNat % 32) % 2)) 4 ∧
      Writes (.bexti rd rs1 shamt) s rd (BitVec.ofNat 32 ((s.x rs1).toNat / 2 ^ shamt.toNat % 2)) 4

/-! ## Absent options (30_encoding.md R166, whose outcome is the spec's decision D21; 45_coprocessor.md R382) -/

/-- The multiplies, the B instructions and the cpx instructions raise exception 2 where their option is absent, and the
cpx instructions where mxstatus.COPINSTEE = 0. A custom word that is no cpx row (R165, R395) is illegal without the
coprocessor interface and refused with it, COPINSTEE = 0 or 1; but one that the platform defines raises exception 2 with
COPINSTEE = 0 (R382). Which words it defines is data of the build: the model's choice (notes/assumptions/57.md; R385, D22). In a build without B, C.SEXT.B, C.ZEXT.H and C.SEXT.H do one thing for the
whole build: all complete, or all trap. Which is a free value: the model's choice (notes/assumptions/33.md; R350, D21). -/
def Obligations.AbsentOptionsTrap : Prop :=
  ((∀ (s : State) (rd : CReg), s.cfg.hasB = false →
      Writes (.cSextB rd) s (creg rd) (signed8 (s.x (creg rd)).toNat) 2 ∧
      Writes (.cZextH rd) s (creg rd) (unsigned16 (s.x (creg rd)).toNat) 2 ∧
      Writes (.cSextH rd) s (creg rd) (signed16 (s.x (creg rd)).toNat) 2) ∨
    ∀ (s : State) (rd : CReg), s.cfg.hasB = false →
      Traps (.cSextB rd) s 2 ∧ Traps (.cZextH rd) s 2 ∧ Traps (.cSextH rd) s 2) ∧
  ∀ (s : State) (rd rs1 rs2 : Reg) (c1 c2 : CReg) (shamt : BitVec 5) (uimm : BitVec 10) (index : BitVec 2),
    (s.cfg.mul = .none →
      ∀ i ∈ [Instr.mul rd rs1 rs2, .mulh rd rs1 rs2, .mulhsu rd rs1 rs2, .mulhu rd rs1 rs2, .cMul c1 c2], Traps i s 2) ∧
    (s.cfg.hasB = false →
      ∀ i ∈ [Instr.sh1add rd rs1 rs2, .sh2add rd rs1 rs2, .sh3add rd rs1 rs2, .andn rd rs1 rs2, .orn rd rs1 rs2,
        .xnor rd rs1 rs2, .clz rd rs1, .ctz rd rs1, .cpop rd rs1, .max rd rs1 rs2, .maxu rd rs1 rs2, .min rd rs1 rs2,
        .minu rd rs1 rs2, .sextB rd rs1, .sextH rd rs1, .zextH rd rs1, .rol rd rs1 rs2, .ror rd rs1 rs2,
        .rori rd rs1 shamt, .orcB rd rs1, .rev8 rd rs1, .bclr rd rs1 rs2, .bclri rd rs1 shamt, .bext rd rs1 rs2,
        .bexti rd rs1 shamt, .binv rd rs1 rs2, .binvi rd rs1 shamt, .bset rd rs1 rs2, .bseti rd rs1 shamt],
        Traps i s 2) ∧
    (s.cfg.hasCop = false ∨ s.csr.copEn = false →
      ∀ i ∈ [Instr.cpx0 index rs1 uimm, .cpx1 index rs1, .cpx2 index rd rs1 shamt, .cpx3 index rd rs1,
        .cpx4 index rs1 rs2 shamt, .cpx5 index rs1 rs2, .cpx6 index rd rs1 rs2, .cpx9 index rd rs1 uimm],
        Traps i s 2) ∧
    (∀ w < 2 ^ 32, CustomWord w → decode (leBytes 4 w) = .error (.custom (BitVec.ofNat 32 w))) ∧
    ∀ w : Word,
      (s.cfg.hasCop = false → execReject s (.custom w) = .next (raise s 2)) ∧
      (s.cfg.hasCop = true → (∀ p ∈ s.cfg.userCop, w &&& p.mask ≠ p.value) →
        execReject s (.custom w) = .refused .customInstruction) ∧
      (s.cfg.hasCop = true → (∃ p ∈ s.cfg.userCop, w &&& p.mask = p.value) →
        execReject s (.custom w) = if s.csr.copEn then .refused .customInstruction else .next (raise s 2))

/-! ## Zca arithmetic and Zcb (43_zca.md, 44_zcb_zcmp_zcmt.md) -/

/-- The arithmetic of Zca (R311 to R316, R324, R325, R328, R330 to R333, R336, R337). The encoding clauses follow R156 to
R158, where the formats of C.MV, C.ADDI4SPN, C.ADDI16SP, C.ANDI, C.SRLI and C.SRAI are general knowledge, as are several
pseudocodes. -/
def Obligations.CompressedArithmeticResults : Prop :=
  EncodedCi 0b000 0b01 .cAddi (fun rd imm => rd ≠ 0 ∧ imm ≠ 0) ∧ EncodedCi 0b010 0b01 .cLi (fun rd _ => rd ≠ 0) ∧
    EncodedCi 0b011 0b01 .cLui (fun rd imm => rd ≠ 0 ∧ rd ≠ 2 ∧ imm ≠ 0) ∧
    EncodedCi 0b000 0b10 (fun rd imm => .cSlli rd (imm.setWidth 5)) (fun rd imm => rd ≠ 0 ∧ 0 < imm.toNat ∧ imm.toNat < 32) ∧
    EncodedCa 0b100011 0b00 .cSub ∧ EncodedCa 0b100011 0b01 .cXor ∧ EncodedCa 0b100011 0b10 .cOr ∧
    EncodedCa 0b100011 0b11 .cAnd ∧ EncodedCr 0b1001 .cAdd ∧ EncodedCr 0b1000 .cMv ∧ EncodedCiw .cAddi4spn ∧
    EncodedAddi16sp .cAddi16sp ∧ EncodedCbAlu 0b10 .cAndi (fun _ => True) ∧
    EncodedCbAlu 0b00 (fun rd imm => .cSrli rd (imm.setWidth 5)) (fun imm => 0 < imm.toNat ∧ imm.toNat < 32) ∧
    EncodedCbAlu 0b01 (fun rd imm => .cSrai rd (imm.setWidth 5)) (fun imm => 0 < imm.toNat ∧ imm.toNat < 32) ∧
    (∀ (s : State) (rd rs2 : Reg) (r : CReg) (imm : BitVec 6) (nzuimm : BitVec 8) (shamt : BitVec 5),
      Writes (.cAdd rd rs2) s rd (wordOf ((s.x rd).toNat + (s.x rs2).toNat)) 2 ∧
      Writes (.cAddi rd imm) s rd (wordOf ((s.x rd).toNat + imm.toInt)) 2 ∧
      Writes (.cAddi4spn r nzuimm) s (creg r) (BitVec.ofNat 32 ((s.x spReg).toNat + 4 * nzuimm.toNat)) 2 ∧
      Writes (.cAddi16sp imm) s spReg (wordOf ((s.x spReg).toNat + 16 * imm.toInt)) 2 ∧
      Writes (.cMv rd rs2) s rd (s.x rs2) 2 ∧
      Writes (.cLi rd imm) s rd (wordOf imm.toInt) 2 ∧
      Writes (.cLui rd imm) s rd (wordOf (imm.toInt * 2 ^ 12)) 2 ∧
      Writes (.cSlli rd shamt) s rd (BitVec.ofNat 32 ((s.x rd).toNat * 2 ^ shamt.toNat)) 2) ∧
    ∀ (s : State) (rd rs2 : CReg) (imm : BitVec 6) (shamt : BitVec 5),
      Writes (.cSub rd rs2) s (creg rd) (wordOf ((s.x (creg rd)).toNat - (s.x (creg rs2)).toNat)) 2 ∧
      Writes (.cAnd rd rs2) s (creg rd) (BitVec.ofNat 32 ((s.x (creg rd)).toNat &&& (s.x (creg rs2)).toNat)) 2 ∧
      Writes (.cOr rd rs2) s (creg rd) (BitVec.ofNat 32 ((s.x (creg rd)).toNat ||| (s.x (creg rs2)).toNat)) 2 ∧
      Writes (.cXor rd rs2) s (creg rd) (BitVec.ofNat 32 ((s.x (creg rd)).toNat ^^^ (s.x (creg rs2)).toNat)) 2 ∧
      Writes (.cAndi rd imm) s (creg rd) (s.x (creg rd) &&& wordOf imm.toInt) 2 ∧
      Writes (.cSrli rd shamt) s (creg rd) (BitVec.ofNat 32 ((s.x (creg rd)).toNat / 2 ^ shamt.toNat)) 2 ∧
      Writes (.cSrai rd shamt) s (creg rd) (wordOf ((s.x (creg rd)).toInt / 2 ^ shamt.toNat)) 2

/-- Zcb: C.ZEXT.B, C.NOT, and, where the build has B, C.SEXT.B, C.ZEXT.H, C.SEXT.H, and, with a multiplier, C.MUL.
General knowledge. -/
def Obligations.ZcbResults : Prop :=
  EncodedCu 0b000 .cZextB ∧ EncodedCu 0b001 .cSextB ∧ EncodedCu 0b010 .cZextH ∧ EncodedCu 0b011 .cSextH ∧
    EncodedCu 0b101 .cNot ∧ EncodedCa 0b100111 0b10 .cMul ∧
    ∀ (s : State) (rd rs2 : CReg),
      Writes (.cZextB rd) s (creg rd) (unsigned8 (s.x (creg rd)).toNat) 2 ∧
      Writes (.cNot rd) s (creg rd) (BitVec.ofNat 32 (2 ^ 32 - 1 - (s.x (creg rd)).toNat)) 2 ∧
      (s.cfg.hasB = true →
        Writes (.cSextB rd) s (creg rd) (signed8 (s.x (creg rd)).toNat) 2 ∧
        Writes (.cZextH rd) s (creg rd) (unsigned16 (s.x (creg rd)).toNat) 2 ∧
        Writes (.cSextH rd) s (creg rd) (signed16 (s.x (creg rd)).toNat) 2) ∧
      (s.cfg.mul ≠ .none →
        Writes (.cMul rd rs2) s (creg rd) (BitVec.ofNat 32 ((s.x (creg rd)).toNat * (s.x (creg rs2)).toNat)) 2)

/-- R310: a compressed instruction and its 32-bit expansion (R311 to R337, 44 R351 to R361) leave the same state but for
the pc, which moves by 2 and not by 4; a jump or a taken branch goes to the same target, the link of C.JAL and C.JALR is
pc + 2, and where the one does not retire they do the same. The expansions of Zcb are general knowledge. -/
def Obligations.CompressedEqualsExpansion : Prop :=
  ∀ (s : State) (rd rs2 : Reg) (c1 c2 : CReg) (imm : BitVec 6) (nzuimm : BitVec 8) (shamt : BitVec 5) (imm5 : BitVec 5)
    (imm2 : BitVec 2) (imm1 : BitVec 1) (off8 : BitVec 8) (off11 : BitVec 11),
    (∀ p ∈ [(Instr.cAdd rd rs2, Instr.add rd rd rs2), (.cAddi rd imm, .addi rd rd (imm.signExtend 12)),
      (.cAddi4spn c1 nzuimm, .addi (creg c1) 2 (4 * nzuimm.setWidth 12)),
      (.cAddi16sp imm, .addi 2 2 (16 * imm.signExtend 12)), (.cMv rd rs2, .add rd 0 rs2),
      (.cLi rd imm, .addi rd 0 (imm.signExtend 12)), (.cLui rd imm, .lui rd (imm.signExtend 20)),
      (.cSlli rd shamt, .slli rd rd shamt), (.cSub c1 c2, .sub (creg c1) (creg c1) (creg c2)),
      (.cAnd c1 c2, .and (creg c1) (creg c1) (creg c2)), (.cOr c1 c2, .or (creg c1) (creg c1) (creg c2)),
      (.cXor c1 c2, .xor (creg c1) (creg c1) (creg c2)),
      (.cAndi c1 imm, .andi (creg c1) (creg c1) (imm.signExtend 12)),
      (.cSrli c1 shamt, .srli (creg c1) (creg c1) shamt), (.cSrai c1 shamt, .srai (creg c1) (creg c1) shamt),
      (.cNop, .addi 0 0 0), (.cZextB c1, .andi (creg c1) (creg c1) 0xFF), (.cNot c1, .xori (creg c1) (creg c1) 0xFFF)],
      RetiresLike p.1 p.2 s) ∧
    (s.cfg.hasB = true →
      ∀ p ∈ [(Instr.cSextB c1, Instr.sextB (creg c1) (creg c1)), (.cZextH c1, .zextH (creg c1) (creg c1)),
        (.cSextH c1, .sextH (creg c1) (creg c1))], RetiresLike p.1 p.2 s) ∧
    (s.cfg.mul ≠ .none → RetiresLike (.cMul c1 c2) (.mul (creg c1) (creg c1) (creg c2)) s) ∧
    (∀ p ∈ [(Instr.cLw c1 c2 imm5, Instr.lw (creg c1) (creg c2) (4 * imm5.setWidth 12)),
      (.cLwsp rd imm, .lw rd 2 (4 * imm.setWidth 12)), (.cSw c1 c2 imm5, .sw (creg c1) (creg c2) (4 * imm5.setWidth 12)),
      (.cSwsp rs2 imm, .sw rs2 2 (4 * imm.setWidth 12)), (.cLbu c1 c2 imm2, .lbu (creg c1) (creg c2) (imm2.setWidth 12)),
      (.cLhu c1 c2 imm1, .lhu (creg c1) (creg c2) (2 * imm1.setWidth 12)),
      (.cLh c1 c2 imm1, .lh (creg c1) (creg c2) (2 * imm1.setWidth 12)),
      (.cSb c1 c2 imm2, .sb (creg c1) (creg c2) (imm2.setWidth 12)),
      (.cSh c1 c2 imm1, .sh (creg c1) (creg c2) (2 * imm1.setWidth 12))], AccessesLike p.1 p.2 s) ∧
    exec (.cJ off11) s = exec (.jal 0 (off11.signExtend 20)) s ∧ exec (.cJr rd) s = exec (.jalr 0 rd 0) s ∧
    exec .cEbreak s = exec .ebreak s ∧
    (∀ p ∈ [(Instr.cJal off11, Instr.jal 1 (off11.signExtend 20)), (.cJalr rd, .jalr 1 rd 0)],
      ∃ u, exec p.2 s = .next u ∧ u.x 1 = s.pc + 4 ∧ exec p.1 s = .next (u.setX 1 (s.pc + 2))) ∧
    (if s.x (creg c1) = 0 then
      exec (.cBeqz c1 off8) s = exec (.beq (creg c1) 0 (off8.signExtend 12)) s ∧
        RetiresLike (.cBnez c1 off8) (.bne (creg c1) 0 (off8.signExtend 12)) s
    else
      RetiresLike (.cBeqz c1 off8) (.beq (creg c1) 0 (off8.signExtend 12)) s ∧
        exec (.cBnez c1 off8) s = exec (.bne (creg c1) 0 (off8.signExtend 12)) s)

/-- C.NOP and FENCE change nothing but the pc and minstret (R329, R238, R121). FENCE.I (R239, R122): every earlier store
becomes visible to fetch, and nothing else changes. A fetch of a location of memory or of a device stored to since the last
FENCE.I stops as the fault staleFetch, and where the bus answers ERROR the fetch raises exception 1, stored to or not: the
model's choices (notes/assumptions/30.md). -/
def Obligations.NopAndFences : Prop :=
  (∀ (s : State) (pred succ : BitVec 4), GoesTo .cNop s (s.pc + 2) ∧ GoesTo (.fence pred succ) s (s.pc + 4)) ∧
    (∀ s : State, ∃ t, exec .fenceI s = .next t ∧ t.stale = [] ∧ t.pc = normPc (s.pc + 4) ∧ SameRegsBut [] s t ∧
      SameMem s t ∧ SameSystem s t ∧ CountedOne s t) ∧
    ∀ (s : State) (w : Width) (a : Nat),
      (response s .fetch a = .error → fetchMain s w a = .exc 1) ∧
      (response s .fetch a ≠ .error → (∃ b ∈ s.stale, InBytes a w.bytes b) → fetchMain s w a = .fault .staleFetch) ∧
      ((∀ b ∈ s.stale, ¬ InBytes a w.bytes b) →
        (response s .fetch a = .memory → fetchMain s w a = .ok (BitVec.ofNat 32 (leValue s.mem a w.bytes))) ∧
        (response s .fetch a = .device → ∃ v, fetchMain s w a = .ok v))

/-! ## Control transfer -/

/-- The conditional branches (R206 to R211, R252). The B format of their encodings is general knowledge (R147). -/
def Obligations.BranchResults : Prop :=
  EncodedB 0b000 .beq ∧ EncodedB 0b001 .bne ∧ EncodedB 0b100 .blt ∧ EncodedB 0b101 .bge ∧ EncodedB 0b110 .bltu ∧
    EncodedB 0b111 .bgeu ∧
    ∀ (s : State) (rs1 rs2 : Reg) (imm : BitVec 12),
      GoesTo (.beq rs1 rs2 imm) s (if s.x rs1 = s.x rs2 then s.pc + wordOf (2 * imm.toInt) else s.pc + 4) ∧
      GoesTo (.bne rs1 rs2 imm) s (if s.x rs1 = s.x rs2 then s.pc + 4 else s.pc + wordOf (2 * imm.toInt)) ∧
      GoesTo (.blt rs1 rs2 imm) s
        (if (s.x rs1).toInt < (s.x rs2).toInt then s.pc + wordOf (2 * imm.toInt) else s.pc + 4) ∧
      GoesTo (.bge rs1 rs2 imm) s
        (if (s.x rs1).toInt < (s.x rs2).toInt then s.pc + 4 else s.pc + wordOf (2 * imm.toInt)) ∧
      GoesTo (.bltu rs1 rs2 imm) s
        (if (s.x rs1).toNat < (s.x rs2).toNat then s.pc + wordOf (2 * imm.toInt) else s.pc + 4) ∧
      GoesTo (.bgeu rs1 rs2 imm) s
        (if (s.x rs1).toNat < (s.x rs2).toNat then s.pc + 4 else s.pc + wordOf (2 * imm.toInt))

/-- JAL and JALR (R212, R213): the link is pc + 4, the target is computed from the old rs1 and is even. Their encoding
clauses are general knowledge (R149, R144). The link value above 2^21 is as notes/assumptions/50.md says. -/
def Obligations.JumpResults : Prop :=
  EncodedJ .jal ∧ EncodedI 0b000 0b1100111 .jalr ∧
    (∀ (s : State) (rd : Reg) (imm : BitVec 20),
      Links (.jal rd imm) s rd (s.pc + 4) (s.pc + wordOf (2 * imm.toInt))) ∧
    ∀ (s : State) (rd rs1 : Reg) (imm : BitVec 12),
      Links (.jalr rd rs1 imm) s rd (s.pc + 4)
        (BitVec.ofNat 32 ((s.x rs1 + wordOf imm.toInt).toNat / 2 * 2))

/-- The compressed jumps and branches (R317, R318, R320 to R323): links are pc + 2. -/
def Obligations.CompressedJumpResults : Prop :=
  ∀ (s : State) (rs1 : Reg) (c : CReg) (imm : BitVec 11) (off : BitVec 8),
    GoesTo (.cJ imm) s (s.pc + wordOf (2 * imm.toInt)) ∧
    Links (.cJal imm) s 1 (s.pc + 2) (s.pc + wordOf (2 * imm.toInt)) ∧
    GoesTo (.cJr rs1) s (BitVec.ofNat 32 ((s.x rs1).toNat / 2 * 2)) ∧
    Links (.cJalr rs1) s 1 (s.pc + 2) (BitVec.ofNat 32 ((s.x rs1).toNat / 2 * 2)) ∧
    GoesTo (.cBeqz c off) s (if s.x (creg c) = 0 then s.pc + wordOf (2 * off.toInt) else s.pc + 2) ∧
    GoesTo (.cBnez c off) s (if s.x (creg c) = 0 then s.pc + 2 else s.pc + wordOf (2 * off.toInt))

/-! ## Loads and stores -/

/-- LB, LBU, LH, LHU, LW (R215 to R219, R251), in every case. The cases that stop are the model's (notes/assumptions/6.md,
24.md, 43.md). -/
def Obligations.LoadResults : Prop :=
  EncodedI 0b000 0b0000011 .lb ∧ EncodedI 0b100 0b0000011 .lbu ∧ EncodedI 0b001 0b0000011 .lh ∧
    EncodedI 0b101 0b0000011 .lhu ∧ EncodedI 0b010 0b0000011 .lw ∧
  ∀ (s : State) (rd rs1 : Reg) (imm : BitVec 12),
    LoadRule (.lb rd rs1 imm) s 4 .byte rd (s.x rs1 + wordOf imm.toInt) signed8 ∧
    LoadRule (.lbu rd rs1 imm) s 4 .byte rd (s.x rs1 + wordOf imm.toInt) unsigned8 ∧
    LoadRule (.lh rd rs1 imm) s 4 .half rd (s.x rs1 + wordOf imm.toInt) signed16 ∧
    LoadRule (.lhu rd rs1 imm) s 4 .half rd (s.x rs1 + wordOf imm.toInt) unsigned16 ∧
    LoadRule (.lw rd rs1 imm) s 4 .word rd (s.x rs1 + wordOf imm.toInt) (BitVec.ofNat 32)

/-- SB, SH, SW (R220 to R222, R251), in every case. -/
def Obligations.StoreResults : Prop :=
  EncodedS 0b000 .sb ∧ EncodedS 0b001 .sh ∧ EncodedS 0b010 .sw ∧
  ∀ (s : State) (rs2 rs1 : Reg) (imm : BitVec 12),
    StoreRule (.sb rs2 rs1 imm) s 4 .byte (s.x rs1 + wordOf imm.toInt) (s.x rs2) ∧
    StoreRule (.sh rs2 rs1 imm) s 4 .half (s.x rs1 + wordOf imm.toInt) (s.x rs2) ∧
    StoreRule (.sw rs2 rs1 imm) s 4 .word (s.x rs1 + wordOf imm.toInt) (s.x rs2)

/-- C.LW, C.LWSP, C.LBU, C.LHU, C.LH (R326, R327, 44 R351 to R353) and C.SW, C.SWSP, C.SB, C.SH (R334, R335, 44 R354, R355),
in every case. -/
def Obligations.CompressedLoadAndStoreResults : Prop :=
  ∀ (s : State) (r2 rs1 : CReg) (r : Reg) (imm5 : BitVec 5) (imm6 : BitVec 6) (imm2 : BitVec 2) (imm1 : BitVec 1),
    LoadRule (.cLw r2 rs1 imm5) s 2 .word (creg r2) (s.x (creg rs1) + BitVec.ofNat 32 (4 * imm5.toNat))
      (BitVec.ofNat 32) ∧
    LoadRule (.cLwsp r imm6) s 2 .word r (s.x spReg + BitVec.ofNat 32 (4 * imm6.toNat)) (BitVec.ofNat 32) ∧
    LoadRule (.cLbu r2 rs1 imm2) s 2 .byte (creg r2) (s.x (creg rs1) + BitVec.ofNat 32 imm2.toNat) unsigned8 ∧
    LoadRule (.cLhu r2 rs1 imm1) s 2 .half (creg r2) (s.x (creg rs1) + BitVec.ofNat 32 (2 * imm1.toNat)) unsigned16 ∧
    LoadRule (.cLh r2 rs1 imm1) s 2 .half (creg r2) (s.x (creg rs1) + BitVec.ofNat 32 (2 * imm1.toNat)) signed16 ∧
    StoreRule (.cSw r2 rs1 imm5) s 2 .word (s.x (creg rs1) + BitVec.ofNat 32 (4 * imm5.toNat)) (s.x (creg r2)) ∧
    StoreRule (.cSwsp r imm6) s 2 .word (s.x spReg + BitVec.ofNat 32 (4 * imm6.toNat)) (s.x r) ∧
    StoreRule (.cSb r2 rs1 imm2) s 2 .byte (s.x (creg rs1) + BitVec.ofNat 32 imm2.toNat) (s.x (creg r2)) ∧
    StoreRule (.cSh r2 rs1 imm1) s 2 .half (s.x (creg rs1) + BitVec.ofNat 32 (2 * imm1.toNat)) (s.x (creg r2))

/-- R106: an access is misaligned exactly when its address is no multiple of its width, so a byte access never is.
R101: outside the TCIP window only bits [20:0] of an address are used, for loads and for stores. -/
def Obligations.AlignmentAndAddressDecoding : Prop :=
  (∀ a : Word, misaligned .byte a = false ∧ (misaligned .half a = true ↔ a.getLsbD 0 = true) ∧
      (misaligned .word a = true ↔ a.getLsbD 0 = true ∨ a.getLsbD 1 = true)) ∧
    (∀ a : Word, inTcip a = true ↔ a.toNat / 2 ^ 28 = 0xE) ∧
    ∀ (s : State) (w : Width) (a b v : Word), inTcip a = false → inTcip b = false →
      a.toNat % 2 ^ 21 = b.toNat % 2 ^ 21 → loadMem s w a = loadMem s w b ∧ storeMem s w a v = storeMem s w b v

/-- R111: accesses are little-endian in every state; and its mixed-width example, for every address and value, through
the instructions: x5 holds the stored value and x6 the address; x7 receives what is read. -/
def Obligations.MemoryIsLittleEndian : Prop :=
  (∀ (m : List Host.Cell) (w : Width) (a : Nat), Memory.read m w a = BitVec.ofNat 32 (leValue m a w.bytes)) ∧
    (∀ (m : List Host.Cell) (w : Width) (a : Nat) (v : Word), Memory.wf m →
      ∀ k < w.bytes, Memory.readByte (Memory.write m w a v) (a + k) = v.extractLsb' (8 * k) 8) ∧
    ∀ s : State, Memory.wf s.mem → misaligned .word (s.x 6) = false → inTcip (s.x 6) = false → s.cfg.platform = [] →
      s.pins.busErrors = [] →
      (∀ k < 4, inIbus s.cfg (mainAddr (s.x 6) + k) = false) →
      ∃ t, exec (.sw 5 6 0) s = .next t ∧
        (∀ k < 4, Writes (.lbu 7 6 (BitVec.ofNat 12 k)) t 7 (BitVec.ofNat 32 ((s.x 5).toNat / 2 ^ (8 * k) % 2 ^ 8)) 4) ∧
        (∀ k < 2, Writes (.lhu 7 6 (BitVec.ofNat 12 (2 * k))) t 7
          (BitVec.ofNat 32 ((s.x 5).toNat / 2 ^ (16 * k) % 2 ^ 16)) 4) ∧
        Writes (.lw 7 6 0) t 7 (s.x 5) 4

/-! ## CSRs (10_state.md; 40_rv32e_base.md R240 to R246) -/

/-- The writing forms of the six CSR instructions complete wherever the write is carried out: `rd` receives the old value
and the new one goes through the field rules. CSRRWI preserves or clears the upper bits, one for the whole machine: the
free value csrrwiUpper (R244; notes/assumptions/8.md). The model's choices: a written minstret stays as written (92 D24,
28.md); a write that changes whether minstret counts completes (53.md), and so do writes of mcause with bit 8 or another
bit 27 (15.md, 16.md), of high bits of mepc (7.md), and of the trigger registers and mhaltcause (38.md to 40.md), and a write
of mexstatus with SOFT_RST = 2'b11, which leaves a free value there and which 93 U10 has a model refuse (11.md). -/
def Obligations.CsrWritesComplete : Prop :=
  EncodedI 0b001 0b1110011 .csrrw ∧ EncodedI 0b010 0b1110011 .csrrs ∧ EncodedI 0b011 0b1110011 .csrrc ∧
    EncodedCsrImm 0b101 .csrrwi ∧ EncodedCsrImm 0b110 .csrrsi ∧ EncodedCsrImm 0b111 .csrrci ∧
  ∀ (s : State) (rd rs1 : Reg) (imm : BitVec 5) (n : BitVec 12) (c : CsrName), csrOf n = some c → Writable s c →
    CsrStep (.csrrw rd rs1 n) s rd c (s.x rs1) ∧
    (c ≠ .mscratchcswl →
      (rs1 ≠ 0 → CsrStep (.csrrs rd rs1 n) s rd c (csrRead s c ||| s.x rs1)) ∧
      (rs1 ≠ 0 → CsrStep (.csrrc rd rs1 n) s rd c (csrRead s c &&& ~~~(s.x rs1))) ∧
      (imm ≠ 0 → CsrStep (.csrrsi rd imm n) s rd c (csrRead s c ||| BitVec.ofNat 32 imm.toNat)) ∧
      (imm ≠ 0 → CsrStep (.csrrci rd imm n) s rd c (csrRead s c &&& ~~~(BitVec.ofNat 32 imm.toNat))) ∧
      CsrStep (.csrrwi rd imm n) s rd c
        (match Config.csrrwiUpper with
          | .preserve => BitVec.ofNat 32 ((csrRead s c).toNat / 2 ^ 5 * 2 ^ 5 + imm.toNat)
          | .zero => BitVec.ofNat 32 imm.toNat))

/-- CSRRS and CSRRC with the rs1 field 0, CSRRSI and CSRRCI with the immediate 0, only read: they are legal on read-only
CSRs and change no CSR (R242, R243, R245, R246). That mip, mhcr (which R51 has a model refuse), the open bits of misa,
mdbginfo and mpcfifo read a free value is the model's choice (notes/assumptions/9.md, 12.md, 13.md, 40.md). -/
def Obligations.CsrPureReads : Prop :=
  ∀ (s : State) (rd : Reg) (n : BitVec 12) (c : CsrName), csrOf n = some c → Readable s c →
    Writes (.csrrs rd 0 n) s rd (csrRead s c) 4 ∧ Writes (.csrrc rd 0 n) s rd (csrRead s c) 4 ∧
    Writes (.csrrsi rd 0 n) s rd (csrRead s c) 4 ∧ Writes (.csrrci rd 0 n) s rd (csrRead s c) 4

/-- R36: every value read from mstatus has the form 0x1800 | MPIE << 7 | MIE << 3, a write changes only MPIE and MIE, and
with them the mirror of MPIE in bit 27 of mcause (R44), and the register resets to 0x1800. -/
def Obligations.MstatusHasOnlyMieAndMpie : Prop :=
  csrOf 0x300 = some .mstatus ∧ csrRead State.reset .mstatus = 0x00001800 ∧
    (∀ s : State, csrRead s .mstatus = 0x1800 + (if s.csr.mpie then 0x80 else 0) + (if s.csr.mie then 0x08 else 0)) ∧
    ∀ (s : State) (v : Word), csrRead (csrWrite s .mstatus v) .mstatus = 0x1800 ||| (v &&& 0x88) ∧
      csrRead (csrWrite s .mstatus v) .mcause =
        (csrRead s .mcause &&& 0xF7FFFFFF) ||| (if v.getLsbD 7 then 0x08000000 else 0) ∧
      ∀ c : CsrName, c ≠ .mstatus → c ≠ .mcause → csrRead (csrWrite s .mstatus v) c = csrRead s c

/-- The value each writable CSR reads after a write of `v`, by the field rules of R38, R39, R40, R43, R44, R47, R49, R50,
R53, R55 to R59, R61 to R66. The positions in dcsr are general knowledge (R63); that it reads XDEBUGVER 4 and STOPTIME 0 and that
a write leaves CAUSE is the model's (notes/assumptions/52.md). That software can write MINHV, bit 30 of mcause, is the model's deduction
(notes/assumptions/15.md); that mcontext is bits [5:0] is the spec's derivation (R62; 52.md). The MPIE mirror of mcause is
written back unchanged here, and bit 8 is 0 (15.md, 16.md); mepc's bits [31:21] follow PC_HIGH_POLICY (7.md), and mhaltcause's bits [31:4] are open
(40.md). tselect, tdata1 and SOFT_RST are given where the value is a trigger's number, a supported type and not 2'b11;
the other values leave a legal one (39.md, 38.md, 11.md). -/
def Obligations.CsrFieldsAfterWrite : Prop :=
  ∀ (s : State) (v : Word),
    (s.cfg.vecFixed = false →
      csrRead (csrWrite s .mtvec v) .mtvec = (v &&& 0xFFFFFFC0) ||| 3 ∧
      csrRead (csrWrite s .mtvt v) .mtvt = v &&& 0xFFFFFFC0 ∧
      csrRead (csrWrite s .jvt v) .jvt = v &&& 0xFFFFFFC0) ∧
    csrRead (csrWrite s .mscratch v) .mscratch = v ∧
    (LowPc v → csrRead (csrWrite s .mepc v) .mepc = v &&& 0xFFFFFFFE) ∧
    (v.getLsbD 8 = false → v.getLsbD 27 = s.csr.mpie →
      csrRead (csrWrite s .mcause v) .mcause = (v &&& 0xC80000FF) ||| 0x30000000) ∧
    csrRead (csrWrite s .mcountinhibit v) .mcountinhibit = v &&& 0x5 ∧
    csrRead (csrWrite s .mcycle v) .mcycle = v ∧ csrRead (csrWrite s .minstret v) .minstret = v ∧
    csrRead (csrWrite s .tcontrol v) .tcontrol = v &&& 0x88 ∧
    csrRead (csrWrite s .mcontext v) .mcontext = v &&& 0x3F ∧
    csrRead (csrWrite s .mhaltcause v) .mhaltcause &&& 0xF = v &&& 0xF ∧
    csrRead (csrWrite s .dcsr v) .dcsr = (v &&& 0x8C14) ||| (csrRead s .dcsr &&& 0x1C0) ||| 0x40000003 ∧
    csrRead (csrWrite s .dpc v) .dpc = v ∧ csrRead (csrWrite s .dscratch0 v) .dscratch0 = v ∧
    csrRead (csrWrite s .dscratch1 v) .dscratch1 = v ∧
    (s.dbg.triggers ≠ [] →
      (csrRead (csrWrite s .tselect v) .tselect).toNat < s.dbg.triggers.length ∧
      (v.toNat < s.dbg.triggers.length → csrRead (csrWrite s .tselect v) .tselect = v)) ∧
    (s.dbg.tselect < s.dbg.triggers.length →
      csrRead (csrWrite s .tdata2 v) .tdata2 = v ∧ csrRead (csrWrite s .tdata3 v) .tdata3 = v &&& 0xFE000000 ∧
      csrRead (csrWrite s .tdata1 v) .tdata1 &&& 0x0FFFFFFF = v &&& 0x0FFFFFFF ∧
      (csrRead s .tinfo = 0x0004 → (csrRead (csrWrite s .tdata1 v) .tdata1).toNat / 2 ^ 28 = 2) ∧
      (csrRead s .tinfo = 0x0038 →
        ((csrRead (csrWrite s .tdata1 v) .tdata1).toNat / 2 ^ 28 = 3 ∨
          (csrRead (csrWrite s .tdata1 v) .tdata1).toNat / 2 ^ 28 = 4 ∨
          (csrRead (csrWrite s .tdata1 v) .tdata1).toNat / 2 ^ 28 = 5) ∧
        (v.toNat / 2 ^ 28 = 3 ∨ v.toNat / 2 ^ 28 = 4 ∨ v.toNat / 2 ^ 28 = 5 →
          csrRead (csrWrite s .tdata1 v) .tdata1 = v))) ∧
    (s.cfg.wf = true →
      (∀ k < 32, (csrRead (csrWrite s .mxstatus v) .mxstatus).getLsbD k =
        if k = s.cfg.mxstatus.copBit then v.getLsbD k
        else if k = s.cfg.mxstatus.pmLow ∨ k = s.cfg.mxstatus.pmLow + 1 then true
        else s.cfg.mxstatus.other.getLsbD k) ∧
      let l := s.cfg.mexstatus
      let r := csrRead s .mexstatus
      let t := csrRead (csrWrite s .mexstatus v) .mexstatus
      (twoAt v l.softRst ≠ 3 → twoAt t l.softRst = twoAt v l.softRst ∧
        padSrst (csrWrite s .mexstatus v) = twoAt v l.softRst) ∧
      twoAt t l.lpmd = (if twoAt v l.lpmd = 0 ∨ twoAt v l.lpmd = 1 then twoAt v l.lpmd else twoAt r l.lpmd) ∧
      t.getLsbD l.wfe = v.getLsbD l.wfe ∧
      t.getLsbD l.exptVld = (if s.dbg.debugMode then v.getLsbD l.exptVld else r.getLsbD l.exptVld) ∧
      t.getLsbD l.lockup = r.getLsbD l.lockup)

/-- R33 and R34: the identification registers are constants, and a write raises exception 2. -/
def Obligations.IdentificationRegisters : Prop :=
  csrOf 0xF11 = some .mvendorid ∧ csrOf 0xF12 = some .marchid ∧ csrOf 0xF13 = some .mimpid ∧
    csrOf 0xF14 = some .mhartid ∧
    (∀ s : State, csrRead s .mvendorid = 0x000005B7 ∧ csrRead s .marchid = 0 ∧ csrRead s .mimpid = 0 ∧
      csrRead s .mhartid = BitVec.ofNat 32 s.cfg.hartidLow.toNat ∧ s.cfg.hartidLow.toNat < 8) ∧
    ∀ (s : State) (rd rs1 : Reg) (imm : BitVec 5), ∀ n ∈ [(0xF11 : BitVec 12), 0xF12, 0xF13, 0xF14],
      Writes (.csrrs rd 0 n) s rd (csrRead s ((csrOf n).getD .mstatus)) 4 ∧
      Traps (.csrrw rd rs1 n) s 2 ∧ Traps (.csrrwi rd imm n) s 2 ∧
      (rs1 ≠ 0 → Traps (.csrrs rd rs1 n) s 2 ∧ Traps (.csrrc rd rs1 n) s 2) ∧
      (imm ≠ 0 → Traps (.csrrsi rd imm n) s 2 ∧ Traps (.csrrci rd imm n) s 2)

/-- The other outcomes of R35, for every writing and every reading form: (b), (c) and (f) raise exception 2 (the spec's
decision D6), (d) ignores the write, and of (e) a write of mcpuid, mdbginfo or mpcfifo raises exception 2. The model's
choices: one of mip, mcounteren, mclicbase or tinfo raises exception 2 or is ignored, one for the CSR and the machine
(notes/assumptions/14.md), and (f) is taken for 0x7B0 to 0x7B3 in a build without debug resources too, which 91 N31 would
have refused (18.md). -/
def Obligations.CsrAccessOutcomes : Prop :=
  (∀ (s : State) (rd rs1 : Reg) (imm : BitVec 5) (n : BitVec 12),
    (s.cfg.vecFixed = true → (n = 0x305 ∨ n = 0x307 ∨ n = 0x017) →
      (∀ i ∈ writingForms rd rs1 imm n, Traps i s 2) ∧
        ∃ c, csrOf n = some c ∧ ∀ i ∈ readingForms rd n, Writes i s rd (csrRead s c) 4) ∧
    (s.cfg.hasCounters = false → (n = 0x306 ∨ n = 0x320 ∨ n = 0xB00 ∨ n = 0xB02) →
      ∀ i ∈ writingForms rd rs1 imm n ++ readingForms rd n, Traps i s 2) ∧
    (n = 0x301 ∨ n = 0x7E0 →
      ∃ c, csrOf n = some c ∧ ∀ i ∈ writingForms rd rs1 imm n, Writes i s rd (csrRead s c) 4) ∧
    (n = 0xFC0 ∨ (s.hasDebug = true ∧ (n = 0xFE1 ∨ n = 0xFE2)) → ∀ i ∈ writingForms rd rs1 imm n, Traps i s 2) ∧
    (csrOf n = none ∨ (s.dbg.debugMode = false ∧ (n = 0x7B0 ∨ n = 0x7B1 ∨ n = 0x7B2 ∨ n = 0x7B3)) →
      ∀ i ∈ writingForms rd rs1 imm n ++ readingForms rd n, Traps i s 2)) ∧
    ∀ p ∈ [((0x344 : BitVec 12), CsrName.mip), (0x306, .mcounteren), (0x350, .mclicbase), (0x7A4, .tinfo)],
      csrOf p.1 = some p.2 ∧
        ((∀ (s : State) (rd rs1 : Reg) (imm : BitVec 5), Readable s p.2 →
          ∀ i ∈ writingForms rd rs1 imm p.1, Traps i s 2) ∨
        ∀ (s : State) (rd rs1 : Reg) (imm : BitVec 5), Readable s p.2 →
          ∀ i ∈ writingForms rd rs1 imm p.1, Writes i s rd (csrRead s p.2) 4)

/-- R41: CSRRW on mscratchcswl exchanges a register with mscratch; rd = rs1 is the swap. The other CSR instructions
refuse it. -/
def Obligations.MscratchcswlSwaps : Prop :=
  (∀ (s : State) (rd rs1 : Reg), ∃ t, exec (.csrrw rd rs1 0x349) s = .next t ∧ t.x rd = written rd s.csr.mscratch ∧
      t.csr = { s.csr with mscratch := s.x rs1 } ∧ t.pc = normPc (s.pc + 4) ∧ SameRegsBut [rd] s t ∧ SameMem s t ∧
      t.stale = s.stale ∧ SameSystem { s with csr := t.csr } t ∧ CountedOne s t) ∧
    ∀ (s : State) (rd rs1 : Reg) (imm : BitVec 5),
      ∀ i ∈ [Instr.csrrs rd rs1 0x349, .csrrc rd rs1 0x349, .csrrwi rd imm 0x349, .csrrsi rd imm 0x349,
        .csrrci rd imm 0x349], exec i s = .refused .mscratchcswlForm

/-- Machine-mode software cannot write EXPT_VLD or LOCKUP, nor the registers of debug mode (R53, R63 to R65): a CSR
instruction outside debug mode and outside a handler either raises exception 2 or leaves them. -/
def Obligations.CsrInstructionsKeepTrapAndDebugState : Prop :=
  ∀ (s t : State) (rd rs1 : Reg) (imm : BitVec 5) (n : BitVec 12), s.dbg.debugMode = false →
    ∀ i ∈ [Instr.csrrw rd rs1 n, .csrrs rd rs1 n, .csrrc rd rs1 n, .csrrwi rd imm n, .csrrsi rd imm n, .csrrci rd imm n],
      exec i s = .next t → t = raise s 2 ∨
        (t.csr.exptVld = s.csr.exptVld ∧ t.csr.lockup = s.csr.lockup ∧ t.dbg.debugMode = false ∧
          t.dbg.dpc = s.dbg.dpc ∧ t.dbg.dscratch0 = s.dbg.dscratch0 ∧ t.dbg.dscratch1 = s.dbg.dscratch1 ∧
          csrRead t .dcsr = csrRead s .dcsr)

/-! ## Exceptions (60_exceptions.md R410 to R416) -/

/-- R410: what taking an exception saves and where it goes, from a state whose pc is one the machine can hold
(Inv.pcEven, Inv.pcHeld). mcause shows the code, Interrupt 0, the MPIE mirror and the old MINHV (R44). -/
def Obligations.ExceptionEntry : Prop :=
  ∀ (s : State) (code : Nat), s.csr.exptVld = false → s.pc.getLsbD 0 = false → normPc s.pc = s.pc →
    ∃ t, raise s code = t ∧ t.csr.mepc = s.pc ∧ t.csr.causeCode = BitVec.ofNat 9 code ∧ t.csr.causeInt = false ∧
      t.csr.mpie = s.csr.mie ∧ t.csr.mie = false ∧ t.csr.exptVld = true ∧
      (code < 2 ^ 8 → csrRead t .mcause =
        (csrRead s .mcause &&& 0x40000000) ||| 0x30000000 ||| (if s.csr.mie then 0x08000000 else 0) |||
          BitVec.ofNat 32 code) ∧
      (s.hasDebug = true → t.dbg = { s.dbg with mpte := s.dbg.mte, mte := false }) ∧
      (s.hasDebug = false → t.dbg = s.dbg) ∧
      t.pc = normPc (csrRead s .mtvec &&& 0xFFFFFFC0) ∧
      t.csr =
        { s.csr with
          mepc := t.csr.mepc, causeCode := t.csr.causeCode, causeInt := t.csr.causeInt
          mpie := t.csr.mpie, mie := t.csr.mie, exptVld := t.csr.exptVld } ∧
      t.trapStack = .exc :: s.trapStack ∧ SameRegsBut [] s t ∧ SameMem s t ∧ t.stale = s.stale ∧ t.ctr = s.ctr ∧
      SameSystem { s with csr := t.csr, dbg := t.dbg, trapStack := t.trapStack } t

/-- R416: an exception inside a handler locks the hart up and changes nothing else; a locked-up hart executes nothing and
keeps its pc until a debug request, whatever the interrupts do. That a fault inside an ECALL handler locks up like any other
is the spec's decision D33, and that mepc, mcause and mstatus stay is the model's reading of the manual's silence
(notes/assumptions/41.md). R417: leaving debug mode ends the lockup, but for the resume pc 0x1FFFFC; that the comparison is
made on dpc, and that a halted hart keeps LOCKUP until then, is the model's deduction (55.md). -/
def Obligations.LockupIsStuck : Prop :=
  (∀ (s : State) (code : Nat), s.csr.exptVld = true → raise s code = { s with csr := { s.csr with lockup := true } }) ∧
    (∀ s : State, Undisturbed s → s.csr.lockup = true → s.dbg.debugMode = false → (nextInput s).request = none →
      ∃ t, step s = .next t ∧ t.pc = s.pc ∧ SameRegsBut [] s t ∧ SameMem s t ∧ t.csr.lockup = true ∧
        t.csr.mepc = s.csr.mepc ∧ t.csr.mie = s.csr.mie ∧ t.csr.mpie = s.csr.mpie ∧
        csrRead t .mcause = csrRead s .mcause ∧ t.ctr.minstret = s.ctr.minstret ∧ t.dbg.debugMode = false) ∧
    ∀ s : State, Halted s → s.csr.lockup = true → (nextInput s).command = some .resume →
      LowPc s.dbg.dpc → s.dbg.dpc.getLsbD 0 = false →
      ∃ t, step s = .next t ∧ t.pc = s.dbg.dpc ∧ t.dbg.debugMode = false ∧ SameRegsBut [] s t ∧ SameMem s t ∧
        (s.dbg.dpc = 0x1FFFFC → t.csr.lockup = true ∧ t.csr.exptVld = s.csr.exptVld) ∧
        (s.dbg.dpc ≠ 0x1FFFFC → t.csr.lockup = false ∧ t.csr.exptVld = false)

/-- R416, R247: ECALL is taken as exception 11 even inside a handler, where every other exception but a breakpoint
instruction's locks up. The MRET of its handler, with mepc untouched, brings back the pc, the interrupt enable, the
registers, memory and the ghost stack; MPIE is 1 and EXPT_VLD 0 (R410, R414, R428). That ECALL is not counted by minstret
is the spec's decision D24 (notes/assumptions/28.md). -/
def Obligations.EcallIsAlwaysTakenAndReturns : Prop :=
  decodeTableWord 32 0x00000073 = some .ecall ∧
  ∀ s : State, s.pc.getLsbD 0 = false → normPc s.pc = s.pc →
    ∃ t u, exec .ecall s = .next t ∧ t.csr.mepc = s.pc ∧ t.csr.causeCode = 11 ∧ t.csr.causeInt = false ∧
      t.csr.mpie = s.csr.mie ∧ t.csr.mie = false ∧ t.csr.exptVld = true ∧ t.csr.lockup = s.csr.lockup ∧
      t.pc = normPc (csrRead s .mtvec &&& 0xFFFFFFC0) ∧ SameRegsBut [] s t ∧ SameMem s t ∧ t.ctr = s.ctr ∧
      exec .mret t = .next u ∧ u.pc = s.pc ∧ u.csr.mie = s.csr.mie ∧
      u.csr.mpie = true ∧ u.csr.exptVld = false ∧ u.csr.causeCode = 11 ∧ SameRegsBut [] s u ∧ SameMem s u ∧
      u.stale = s.stale ∧ (s.hasDebug = true → u.dbg.mte = s.dbg.mte) ∧
      SameSystem { s with csr := u.csr, dbg := u.dbg } u ∧ CountedOne s u

/-- R248, R319, R466: EBREAK and C.EBREAK enter debug mode where dcsr.EBREAKM = 1 and the debug resources exist, with
dpc = pc and cause 1; else they raise exception 3, inside a handler too. That dpc holds their own address is general
knowledge (R466); that minstret does not count them is the spec's decision D24, where R49 is open
(notes/assumptions/28.md). -/
def Obligations.BreakpointInstructions : Prop :=
  decodeTableWord 32 0x00100073 = some .ebreak ∧ decodeTableWord 16 0x9002 = some .cEbreak ∧
  ∀ s : State, s.pc.getLsbD 0 = false → normPc s.pc = s.pc → ∀ i ∈ [Instr.ebreak, .cEbreak],
    (s.hasDebug = true ∧ s.dbg.ebreakm = true →
      ∃ t, exec i s = .next t ∧ t.dbg.debugMode = true ∧ t.dbg.dpc = s.pc ∧ t.dbg.cause = 1 ∧ t.csr = s.csr ∧
        t.pc = s.pc ∧ SameRegsBut [] s t ∧ SameMem s t ∧ t.ctr = s.ctr) ∧
    (s.hasDebug = false ∨ s.dbg.ebreakm = false →
      ∃ t, exec i s = .next t ∧ t.csr.mepc = s.pc ∧ t.csr.causeCode = 3 ∧ t.csr.causeInt = false ∧
        t.csr.mpie = s.csr.mie ∧ t.csr.mie = false ∧ t.csr.exptVld = true ∧ t.csr.lockup = s.csr.lockup ∧
        t.dbg.debugMode = s.dbg.debugMode ∧ t.pc = normPc (csrRead s .mtvec &&& 0xFFFFFFC0) ∧ SameRegsBut [] s t ∧
        SameMem s t ∧ t.ctr = s.ctr)

/-- R249, R414, R429: MRET, from a state whose mepc is one the machine can hold (Inv.mepcHeld). -/
def Obligations.TrapReturn : Prop :=
  decodeTableWord 32 0x30200073 = some .mret ∧
    ∀ s : State, normPc s.csr.mepc = s.csr.mepc →
      ∃ t, exec .mret s = .next t ∧ t.pc = s.csr.mepc ∧
        t.csr = { s.csr with mie := s.csr.mpie, mpie := true, exptVld := false } ∧
        csrRead t .mstatus &&& 0x1800 = 0x1800 ∧ csrRead t .mxstatus = csrRead s .mxstatus ∧
        csrRead t .mcause = csrRead s .mcause ||| 0x08000000 ∧
        (s.hasDebug = true → t.dbg = { s.dbg with mte := s.dbg.mpte }) ∧ (s.hasDebug = false → t.dbg = s.dbg) ∧
        t.trapStack = s.trapStack.tail ∧ SameRegsBut [] s t ∧ SameMem s t ∧ t.stale = s.stale ∧
        SameSystem { s with csr := t.csr, dbg := t.dbg, trapStack := t.trapStack } t ∧ CountedOne s t

/-! ## WFI and interrupts (60_exceptions.md R420 to R430, R460 to R462) -/

/-- R250, R460: WFI retires; the hart then sleeps unless something already wakes it (R462), and while nothing wakes it a step
executes nothing. Where something wakes it and no interrupt is taken, as with MIE = 0, it leaves the low-power state and runs
the instruction at its pc, which WFI set to the next one. What wakes is the spec's decision D16, that waking and running
are one step the model's (notes/assumptions/22.md). -/
def Obligations.WfiSleepsUntilWoken : Prop :=
  (∀ s : State, ∃ t, exec .wfi s = .next t ∧ t.pc = normPc (s.pc + 4) ∧ t.sleeping = !wakes s ∧ SameRegsBut [] s t ∧
      SameMem s t ∧ t.stale = s.stale ∧ SameSystem { s with sleeping := t.sleeping } t ∧ CountedOne s t) ∧
    (∀ s : State, wakes s = true ↔
      (∃ id < 128, isPending s id = true ∧ (sourceOf s id).ie = true) ∨ (s.pins.event = true ∧ s.csr.wfe = true)) ∧
    (∀ s : State, Running s → s.sleeping = true → wakes (sample s (nextInput s)) = false →
      step s = .next (sample s (nextInput s)) ∧ (sample s (nextInput s)).pc = s.pc ∧
        (sample s (nextInput s)).sleeping = true ∧ SameRegsBut [] s (sample s (nextInput s)) ∧
        SameMem s (sample s (nextInput s))) ∧
    ∀ s : State, Unhindered s → s.sleeping = true → wakes (sample s (nextInput s)) = true →
      RunsDecoded s { sample s (nextInput s) with sleeping := false }

/-- R421: the winner of arbitration is the pending and enabled source with the largest id, whatever mstatus.MIE holds. -/
def Obligations.LargestActiveIdWins : Prop :=
  ∀ s : State,
    (∀ id, winner s = some id ↔ id < 128 ∧ isPending s id = true ∧ (sourceOf s id).ie = true ∧
      ∀ j < 128, id < j → ¬ (isPending s j = true ∧ (sourceOf s j).ie = true)) ∧
    (winner s = none ↔ ∀ j < 128, ¬ (isPending s j = true ∧ (sourceOf s j).ie = true))

/-- R422 and R423: a non-vectored interrupt is taken at the boundary where its condition holds, during a single step too
where dcsr.STEPIE = 1 (R430). With STEPIE = 0 a single step takes no interrupt of any kind (R430, R472): the instruction at the
pc runs, whichever source is active. That it is the first such boundary is the spec's choice D34 (notes/assumptions/21.md);
that debug mode does not follow an entry during a single step at once is the model's (56.md); EXPT_VLD is left out, for R415
leaves it open. Where the masked single step begins asleep, what wakes the hart is the spec's decision D16, and that waking
and running the instruction are one step is the model's (22.md). -/
def Obligations.NonVectoredInterruptEntry : Prop :=
  (∀ s : State, Running s → SteppingMasked s → s.dbg.triggers.any (armed s) = false →
    s.sleeping = false ∨ wakes (sample s (nextInput s)) = true →
    RunsDecoded s { sample s (nextInput s) with sleeping := false }) ∧
  ∀ (s : State) (id : Nat), Running s → TakesInterrupts s → s.trapStack.contains .irq = false →
    s.pc.getLsbD 0 = false → normPc s.pc = s.pc → winner (sample s (nextInput s)) = some id →
    (sourceOf (sample s (nextInput s)) id).shv = false →
    ∃ t, step s = .next t ∧ t.csr.mepc = s.pc ∧ t.csr.causeCode = BitVec.ofNat 9 id ∧ t.csr.causeInt = true ∧
      t.csr.mpie = true ∧ t.csr.mie = false ∧ t.csr.minhv = s.csr.minhv ∧
      t.pc = normPc (csrRead s .mtvec &&& 0xFFFFFFC0) ∧ t.sleeping = false ∧ t.trapStack = .irq :: s.trapStack ∧ t.dbg.debugMode = false ∧
      (s.hasDebug = true → t.dbg.mpte = s.dbg.mte ∧ t.dbg.mte = false) ∧ SameRegsBut [] s t ∧ SameMem s t ∧
      t.clic = (sample s (nextInput s)).clic ∧ t.ctr.minstret = s.ctr.minstret ∧ t.cfg = s.cfg

/-- R422, R424 and R425: a vectored interrupt goes to the address in the word at mtvt + 4 * id, and the pending latch of an
edge source is cleared. That it is taken at the first boundary where its condition holds is the spec's choice D34
(notes/assumptions/21.md); that debug mode does not follow at once during a single step is the model's (56.md). The model's choices: the table is read as data, and may lie in the instruction-bus region; where
the word is odd, which R424 leaves open, the hart goes on at some even address, and a word with bits [31:21] not zero, which
R424 and D17 have a model refuse too, is taken, its high bits following PC_HIGH_POLICY (23.md, 7.md). -/
def Obligations.VectoredInterruptEntry : Prop :=
  ∀ (s : State) (id : Nat) (v : Word), Running s → TakesInterrupts s →
    s.trapStack.contains .irq = false → s.pc.getLsbD 0 = false → normPc s.pc = s.pc →
    winner (sample s (nextInput s)) = some id → (sourceOf (sample s (nextInput s)) id).shv = true →
    inTcip (vectorAddr s id) = false →
    response (sample s (nextInput s)) .load (mainAddr (vectorAddr s id)) = .memory →
    isStale s.stale (mainAddr (vectorAddr s id)) 4 = false →
    v = BitVec.ofNat 32 (leValue s.mem (mainAddr (vectorAddr s id)) 4) →
    ∃ t, step s = .next t ∧ (v.getLsbD 0 = false → t.pc = normPc v) ∧ t.pc.getLsbD 0 = false ∧ t.csr.mepc = s.pc ∧
      t.csr.causeCode = BitVec.ofNat 9 id ∧ t.csr.causeInt = true ∧
      t.csr.mpie = true ∧ t.csr.mie = false ∧ t.csr.minhv = false ∧ t.sleeping = false ∧
      t.trapStack = .irq :: s.trapStack ∧ t.dbg.debugMode = false ∧
      (s.hasDebug = true → t.dbg.mpte = s.dbg.mte ∧ t.dbg.mte = false) ∧
      SameRegsBut [] s t ∧ SameMem s t ∧ t.devices = s.devices ∧ t.ctr.minstret = s.ctr.minstret ∧ t.cfg = s.cfg ∧
      (sourceOf t id).latch =
        (if (sourceOf (sample s (nextInput s)) id).edge then false
          else (sourceOf (sample s (nextInput s)) id).latch) ∧
      ∀ j, j ≠ id → sourceOf t j = sourceOf (sample s (nextInput s)) j

/-- R427: an interrupt that would be taken inside an interrupt handler stops the run as the fault nestedInterrupt: the
manual calls the outcome unpredictable, and the stop is the model's choice (notes/assumptions/20.md). -/
def Obligations.NestedInterruptFaults : Prop :=
  ∀ s : State, Running s → TakesInterrupts s → s.trapStack.contains .irq = true →
    winner (sample s (nextInput s)) ≠ none → step s = .fault .nestedInterrupt

/-- A store of a word to msip makes source 3 pending or not by its bit 0 (R441, R446), with no effect elsewhere; one to
mtimecmpl makes source 7 pending exactly while the word is at most the counter, which mtimel reads (R442, R443). The
worked configuration of R451: the word 0x7F010100 to 0xE0801040 makes interrupt 16 an enabled, vectored level interrupt,
and the store to clicintctl is ignored (R448 to R450). That it runs also where it changes TRIG while IP = 1, which R447 leaves
open, or while IE = 1, which 93 U12 has a model refuse, is the model's choice (notes/assumptions/26.md). -/
def Obligations.ClintAndClicStores : Prop :=
  (∀ (s : State) (rs1 rs2 : Reg), s.x rs1 = 0xE0000000 → (sourceOf s 3).edge = false →
    ∃ t, StoresToTcip (.sw rs2 rs1 0) s t ∧ isPending t 3 = (s.x rs2).getLsbD 0 ∧
      (∀ j, j ≠ 3 → isPending t j = isPending s j) ∧ t.clic.sources = s.clic.sources ∧
      Writes (.lw rs2 rs1 0) t rs2 (BitVec.ofNat 32 ((s.x rs2).toNat % 2)) 4) ∧
    (∀ (s : State) (rs1 rs2 : Reg), s.cfg.hasCounters = true → s.x rs1 = 0xE0004000 → (sourceOf s 7).edge = false →
      ∃ t, StoresToTcip (.sw rs2 rs1 0) s t ∧ (isPending t 7 = true ↔ (s.x rs2).toNat ≤ s.pins.sysCnt.toNat) ∧
        (∀ j, j ≠ 7 → isPending t j = isPending s j) ∧ t.clic.sources = s.clic.sources ∧
        Writes (.lw rs2 rs1 0) t rs2 (s.x rs2) 4) ∧
    (∀ (s : State) (rd rs1 : Reg), s.cfg.hasCounters = true → s.x rs1 = 0xE000BFF8 →
      Writes (.lw rd rs1 0) s rd s.pins.sysCnt 4) ∧
    (∀ (s : State) (i : StepInput), s.cfg.hasCounters = true → (sourceOf s 7).edge = false →
      (isPending (sample s i) 7 = true ↔ s.clic.mtimecmp.toNat ≤ i.sysCnt.toNat)) ∧
    ∀ (s : State) (rs1 rs2 : Reg), s.x rs1 = 0xE0801040 → s.x rs2 = 0x7F010100 → 1 ≤ s.cfg.extIntNum →
      ∃ t, StoresToTcip (.sw rs2 rs1 0) s t ∧
        sourceOf t 16 = { latch := false, ie := true, edge := false, falling := false, shv := true } ∧
        (∀ j, j ≠ 16 → sourceOf t j = sourceOf s j) ∧ isActive t 16 = s.pins.lines.getLsbD 0 ∧
        ∃ v : Word, Writes (.lw rs2 rs1 0) t rs2 v 4 ∧ v.toNat / 2 ^ 16 = 0x10C1 ∧ v.toNat / 2 ^ 8 % 2 ^ 8 = 0x01

/-- The four byte registers of a source: what LBU reads from each and what SB to each does (R446 to R450), and the pending
bit when the external line is sampled: the line itself in level mode, the latch and the selected edge in edge mode. Where TRIG
changes to an edge mode, the source is neither pending nor its line active here (the rest is open: R447,
notes/assumptions/26.md). That a store to clicintattr which changes TRIG runs also while IE = 1, which 93 U12 has a model
refuse, and from an edge mode to level while IP = 1, which R447 leaves open, is the model's choice too (26.md). -/
def Obligations.ClicByteRegisters : Prop :=
  (∀ (s : State) (id : Nat) (rd rs1 rs2 : Reg), hasSource s.cfg id = true → ClicSource.legal id (sourceOf s id) →
    let x := sourceOf s id
    let v := s.x rs2
    (s.x rs1 = BitVec.ofNat 32 (0xE0801000 + 4 * id) →
      Writes (.lbu rd rs1 0) s rd (bitOf (isPending s id = true)) 4 ∧
      ∃ t, StoresToTcip (.sb rs2 rs1 0) s t ∧ isPending t id = (if x.edge then v.getLsbD 0 else isPending s id) ∧
        sourceOf t id = { x with latch := (sourceOf t id).latch } ∧ ∀ j, j ≠ id → sourceOf t j = sourceOf s j) ∧
    (s.x rs1 = BitVec.ofNat 32 (0xE0801001 + 4 * id) →
      Writes (.lbu rd rs1 0) s rd (bitOf (x.ie = true)) 4 ∧
      ∃ t, StoresToTcip (.sb rs2 rs1 0) s t ∧ sourceOf t id = { x with ie := v.getLsbD 0 } ∧
        ∀ j, j ≠ id → sourceOf t j = sourceOf s j) ∧
    (s.x rs1 = BitVec.ofNat 32 (0xE0801002 + 4 * id) →
      Writes (.lbu rd rs1 0) s rd
        (0xC0 + 4 * bitOf (x.falling = true) + 2 * bitOf (x.edge = true) + bitOf (x.shv = true)) 4 ∧
      (v.getLsbD 1 = false → v.getLsbD 2 = true → exec (.sb rs2 rs1 0) s = .refused .reservedTrigger) ∧
      (v.getLsbD 1 = true → (id = 3 ∨ id = 7) → exec (.sb rs2 rs1 0) s = .refused .clintEdgeMode) ∧
      (v.getLsbD 1 = false → v.getLsbD 2 = false →
        ∃ t, StoresToTcip (.sb rs2 rs1 0) s t ∧
          sourceOf t id = { latch := false, ie := x.ie, edge := false, falling := false, shv := v.getLsbD 0 } ∧
          ∀ j, j ≠ id → sourceOf t j = sourceOf s j) ∧
      (v.getLsbD 1 = true → 16 ≤ id →
        (x.edge = true ∧ v.getLsbD 2 = x.falling) ∨ (isPending s id = false ∧ lineOf s id = false) →
        ∃ t, StoresToTcip (.sb rs2 rs1 0) s t ∧
          sourceOf t id =
            { latch := x.edge && x.latch && (v.getLsbD 2 == x.falling), ie := x.ie, edge := true
              falling := v.getLsbD 2, shv := v.getLsbD 0 } ∧
          ∀ j, j ≠ id → sourceOf t j = sourceOf s j)) ∧
    (s.x rs1 = BitVec.ofNat 32 (0xE0801003 + 4 * id) →
      Writes (.lbu rd rs1 0) s rd (BitVec.ofNat 32 id) 4 ∧
      ∃ t, StoresToTcip (.sb rs2 rs1 0) s t ∧ t.clic = s.clic)) ∧
    ∀ (s : State) (i : StepInput) (id : Nat), 16 ≤ id → hasSource s.cfg id = true →
      ((sourceOf s id).edge = false → isPending (sample s i) id = i.lines.getLsbD (id - 16)) ∧
      ((sourceOf s id).edge = true →
        (isPending (sample s i) id = true ↔ (sourceOf s id).latch = true ∨
          (s.pins.lines.getLsbD (id - 16) = (sourceOf s id).falling ∧ i.lines.getLsbD (id - 16) ≠ (sourceOf s id).falling)))

/-! ## Zcmp and Zcmt (44_zcb_zcmp_zcmt.md; general knowledge) -/

/-- CM.PUSH: the registers of the list below the stack pointer, the highest-numbered first, and sp last. Slots may lie in memory
or on a device. -/
def Obligations.PushResults : Prop :=
  ∀ (s : State) (l : RegList) (spimm : BitVec 2), Memory.wf s.mem →
    (∀ k < (listRegs l).length, StoresToBus s .word (stackSlot (s.x spReg) k)) →
    ∃ t, exec (.cmPush l spimm) s = .next t ∧
      (∀ k r, (listRegs l)[k]? = some r → StoresToMemory s .word (stackSlot (s.x spReg) k) →
        HoldsBytes t (mainAddr (stackSlot (s.x spReg) k)) 4 (s.x r)) ∧
      SameMemBut (InSlots s (s.x spReg) (listRegs l).length) s t ∧
      t.devices = slotRecords s (listRegs l) (s.x spReg) (listRegs l).length ∧
      t.x spReg = s.x spReg - BitVec.ofNat 32 (16 + 16 * spimm.toNat) ∧ SameRegsBut [spReg] s t ∧
      t.pc = normPc (s.pc + 2) ∧
      (∀ b, b ∈ t.stale ↔ b ∈ s.stale ∨
        ∃ k < (listRegs l).length, InBytes (mainAddr (stackSlot (s.x spReg) k)) 4 b) ∧
      SameSystem { s with devices := t.devices } t ∧ CountedOne s t

/-- CM.POP, CM.POPRET and CM.POPRETZ: the registers of the list from their slots, in memory or on a device, sp, and the return to
the ra loaded. -/
def Obligations.PopResults : Prop :=
  ∀ (s : State) (l : RegList) (spimm : BitVec 2) (top : Word),
    top = s.x spReg + BitVec.ofNat 32 (16 + 16 * spimm.toNat) →
    (∀ k < (listRegs l).length, LoadsFromBus s .word (stackSlot top k)) →
    (∃ t, exec (.cmPop l spimm) s = .next t ∧ Popped s t l top ∧ t.pc = normPc (s.pc + 2) ∧
      RegisterFrame (spReg :: listRegs l) { s with devices := t.devices } t) ∧
    (∃ t, exec (.cmPopret l spimm) s = .next t ∧ Popped s t l top ∧
      t.pc = normPc (clearBit0 (slotWord s top ((listRegs l).length - 1))) ∧
      RegisterFrame (spReg :: listRegs l) { s with devices := t.devices } t) ∧
    ∃ t, exec (.cmPopretz l spimm) s = .next t ∧ Popped s t l top ∧ t.x 10 = 0 ∧
      t.pc = normPc (clearBit0 (slotWord s top ((listRegs l).length - 1))) ∧
      RegisterFrame (10 :: spReg :: listRegs l) { s with devices := t.devices } t

/-- A CM.PUSH and the CM.POP with the same list and adjustment restore every register. -/
def Obligations.PushThenPopRestores : Prop :=
  ∀ (s : State) (l : RegList) (spimm : BitVec 2), Memory.wf s.mem →
    (∀ k < (listRegs l).length, StoresToMemory s .word (stackSlot (s.x spReg) k) ∧
      LoadsFromMemory s .word (stackSlot (s.x spReg) k)) →
    ∃ t u, exec (.cmPush l spimm) s = .next t ∧ exec (.cmPop l spimm) t = .next u ∧ SameRegsBut [] s u ∧
      SameMem t u ∧ SameSystem s u

/-- Where a stack access does not complete (R362, R373): a misaligned sp raises 6 or 4 before anything is done; a bus error
at slot n raises 7 or 5 from a state in which sp, the pc and every register outside the list are unchanged, and memory
but for slots already stored. The model's choices: which of those transfers are kept is a free value (a device that was
read stays read), and the TCIP window and the instruction-bus region stop by name (notes/assumptions/34.md, 43.md). -/
def Obligations.StackFaultsKeepSp : Prop :=
  ∀ (s : State) (l : RegList) (spimm : BitVec 2) (top : Word) (pop : Instr),
    top = s.x spReg + BitVec.ofNat 32 (16 + 16 * spimm.toNat) →
    pop ∈ [Instr.cmPop l spimm, .cmPopret l spimm, .cmPopretz l spimm] →
    (misaligned .word (s.x spReg) = true → Traps (.cmPush l spimm) s 6 ∧ Traps pop s 4) ∧
    (misaligned .word (s.x spReg) = false →
      ((∃ k < (listRegs l).length, inTcip (stackSlot (s.x spReg) k) = true) →
        exec (.cmPush l spimm) s = .refused .zcmpTcip) ∧
      ((∃ k < (listRegs l).length, inTcip (stackSlot top k) = true) → exec pop s = .refused .zcmpTcip) ∧
      (∀ n < (listRegs l).length, (∀ k < (listRegs l).length, inTcip (stackSlot (s.x spReg) k) = false) →
        (∀ k < n, StoresToBus s .word (stackSlot (s.x spReg) k)) →
        (inIbus s.cfg (mainAddr (stackSlot (s.x spReg) n)) = true → exec (.cmPush l spimm) s = .fault .ibusData) ∧
        (inIbus s.cfg (mainAddr (stackSlot (s.x spReg) n)) = false →
          response s .store (mainAddr (stackSlot (s.x spReg) n)) = .error →
          ∃ kept, exec (.cmPush l spimm) s = .next (raise kept 7) ∧ SameRegsBut [] s kept ∧ kept.pc = s.pc ∧
            SameMemBut (InSlots s (s.x spReg) n) s kept ∧
            kept.devices.Sublist (slotRecords s (listRegs l) (s.x spReg) n) ∧ s.devices.Sublist kept.devices ∧
            SameSystem { s with devices := kept.devices } kept ∧ kept.ctr = s.ctr)) ∧
      ∀ n < (listRegs l).length, (∀ k < (listRegs l).length, inTcip (stackSlot top k) = false) →
        (∀ k < n, LoadsFromBus s .word (stackSlot top k)) →
        (inIbus s.cfg (mainAddr (stackSlot top n)) = true → exec pop s = .fault .ibusData) ∧
        (inIbus s.cfg (mainAddr (stackSlot top n)) = false →
          response s .load (mainAddr (stackSlot top n)) = .error →
          ∃ kept, exec pop s = .next (raise kept 5) ∧ SameRegsBut (listRegs l) s kept ∧ kept.pc = s.pc ∧
            SameMem s kept ∧ kept.devices = slotQueries s top n ∧
            SameSystem { s with devices := kept.devices } kept ∧ kept.ctr = s.ctr))

/-- CM.MVSA01 with its two different registers, and CM.MVA01S, whose registers may be equal (R367, R368). -/
def Obligations.DoubleMoveResults : Prop :=
  ∀ (s : State) (r1 r2 : SReg),
    (r1 ≠ r2 → ∃ t, exec (.cmMvsa01 r1 r2) s = .next t ∧ t.x (sreg r1) = s.x 10 ∧ t.x (sreg r2) = s.x 11 ∧
      t.pc = normPc (s.pc + 2) ∧ RegisterFrame [8, 9] s t) ∧
    ∃ t, exec (.cmMva01s r1 r2) s = .next t ∧ t.x 10 = s.x (sreg r1) ∧ t.x 11 = s.x (sreg r2) ∧
      t.pc = normPc (s.pc + 2) ∧ RegisterFrame [10, 11] s t

/-- CM.JT and CM.JALT (R370 to R372): the table entry as the target, the link, and the ways the read can fail. A table stored
to since FENCE.I, in memory or on a device, or in the TCIP window stops by name, what a device answers is a free value, and
ERROR goes before the stored mark: the model's choices (notes/assumptions/35.md, 6.md, 30.md). -/
def Obligations.TableJumpResults : Prop :=
  ∀ (s : State) (j : BitVec 5) (k : BitVec 8) (a : Word) (i : Instr),
    (i = .cmJt j ∧ a = (csrRead s .jvt &&& 0xFFFFFFC0) + BitVec.ofNat 32 (4 * j.toNat) ∨
      i = .cmJalt k ∧ a = (csrRead s .jvt &&& 0xFFFFFFC0) + BitVec.ofNat 32 (4 * k.toNat)) →
    (TableReadable s a →
      (i = .cmJt j → GoesTo i s (clearBit0 (BitVec.ofNat 32 (leValue s.mem (mainAddr a) 4)))) ∧
      (i = .cmJalt k → Links i s 1 (s.pc + 2) (clearBit0 (BitVec.ofNat 32 (leValue s.mem (mainAddr a) 4))))) ∧
    (inTcip a = false → response s .fetch (mainAddr a) = .error → Traps i s 1) ∧
    (inTcip a = false → response s .fetch (mainAddr a) = .device → isStale s.stale (mainAddr a) 4 = false →
      ∃ v, v = deviceValue s .word (deviceQuery .fetch .word a :: s.devices) ∧
        (i = .cmJt j → GoesTo i s (clearBit0 (BitVec.ofNat 32 v))) ∧
        (i = .cmJalt k → Links i s 1 (s.pc + 2) (clearBit0 (BitVec.ofNat 32 v)))) ∧
    (inTcip a = false → response s .fetch (mainAddr a) ≠ .error → isStale s.stale (mainAddr a) 4 = true →
      exec i s = .fault .staleFetch) ∧
    (inTcip a = true → exec i s = .refused .tableTcip)

/-! ## Coprocessor instructions (45_coprocessor.md R382, R383, R386 to R393) -/

/-- The request of every cpx instruction (R383): its index, its whole word and its source values (cpx9 sends the old rd
too), sent once. With write-back, rd receives the coprocessor's answer, a free value of everything sent so far (R381;
notes/assumptions/36.md); without, no register changes. -/
def Obligations.CoprocessorRequests : Prop :=
  ∀ (s : State) (index : BitVec 2) (rd rs1 rs2 : Reg) (uimm : BitVec 10) (imm : BitVec 5),
    s.cfg.hasCop = true → s.csr.copEn = true →
    (∀ p ∈ [(Instr.cpx0 index rs1 uimm, [s.x rs1]), (.cpx1 index rs1, [s.x rs1]),
      (.cpx4 index rs1 rs2 imm, [s.x rs1, s.x rs2]), (.cpx5 index rs1 rs2, [s.x rs1, s.x rs2])],
      ∃ t q, exec p.1 s = .next t ∧ t.cop = q :: s.cop ∧ q.index = index ∧ q.srcs = p.2 ∧
        q.word.toNat = encode p.1 ∧ field q.word.toNat 30 2 = index.toNat ∧ t.pc = normPc (s.pc + 4) ∧
        SameRegsBut [] s t ∧ SameMem s t ∧ t.stale = s.stale ∧ SameSystem { s with cop := t.cop } t ∧ CountedOne s t) ∧
    ∀ p ∈ [(Instr.cpx2 index rd rs1 imm, [s.x rs1]), (.cpx3 index rd rs1, [s.x rs1]),
      (.cpx6 index rd rs1 rs2, [s.x rs1, s.x rs2]), (.cpx9 index rd rs1 uimm, [s.x rs1, s.x rd])],
      ∃ t q, exec p.1 s = .next t ∧ t.cop = q :: s.cop ∧ q.index = index ∧ q.srcs = p.2 ∧
        q.word.toNat = encode p.1 ∧ field q.word.toNat 30 2 = index.toNat ∧
        t.x rd = written rd (Config.copResult t.cop) ∧ t.pc = normPc (s.pc + 4) ∧
        SameRegsBut [rd] s t ∧ SameMem s t ∧ t.stale = s.stale ∧ SameSystem { s with cop := t.cop } t ∧ CountedOne s t

/-! ## The step -/

/-- A step runs the instruction at the pc: where nothing happens at the boundary (with MIE = 1 too, if no source is active) and, under the bus errors of this step, the
bytes at the pc can be fetched, the step is the meaning of the instruction they decode to, after the inputs of the step are
sampled, followed by the single-step rule; bytes that are no instruction do what R160 to R165 say; a fetch answered by ERROR
raises exception 1 (R108, R110). -/
def Obligations.StepRunsTheDecodedInstruction : Prop :=
  ∀ s : State, Quiet s → RunsDecoded s (sample s (nextInput s))

/-- Every step keeps the invariant, from every state that has it, reachable or not: memory in canonical form, pc and mepc
even and as the pc register holds them (R27, R28, R43), LPMD legal (R53), CLIC sources legal (R446, R449, R420), triggers
legal (R57). The canonical form and what PC_HIGH_POLICY does are the model's (notes/assumptions/5.md, 7.md); so is that the
selected trigger exists, where R56 does not say what tselect holds after a write of a number with no trigger (39.md), and that
TYPE is a legal type after a write of an unsupported one (38.md). -/
def Obligations.EveryStepKeepsTheInvariant : Prop :=
  ∀ s t : State, Inv s → step s = .next t → Inv t

/-- The state after reset has the invariant. -/
def Obligations.ResetHasTheInvariant : Prop := Inv State.reset

/-- No step changes the build, and a step advances the model's counter by one (the model's own fields,
notes/assumptions/1.md, 47.md). A build the manual forbids does not run (R104 b, c; 93 U2): the refusal is the spec's,
its name and that other impossible builds share it the model's. -/
def Obligations.EveryStepKeepsTheBuild : Prop :=
  (∀ s t : State, step s = .next t → t.cfg = s.cfg ∧ t.tick = s.tick + 1) ∧
    ∀ s : State, s.cfg.wf = false → step s = .refused .illegalBuild

/-- What R29, R36, R38, R39, R44, R47 to R49, R52, R53, R55, R61, R441 to R444 and R446 to R449 say of reset, in every build;
with fixed vectors mtvec, mtvt and jvt show the interface. The CLIC word of source 16 shows clicintctl, clicintattr,
clicintie and clicintip. NLBITS, the layout of mexstatus and the low bits of a fixed base are the model's
(notes/assumptions/27.md, 11.md, 1.md). -/
def Obligations.ResetValues : Prop :=
  ∀ c : Config, 1 ≤ c.extIntNum →
    (State.resetWith c).pc = BitVec.ofNat 32 c.resetAddr.toNat ∧
    csrRead (State.resetWith c) .mraddr = (State.resetWith c).pc ∧
    csrRead (State.resetWith c) .mstatus = 0x00001800 ∧
    (c.vecFixed = false →
      csrRead (State.resetWith c) .mtvec = 0x00000003 ∧ csrRead (State.resetWith c) .mtvt = 0) ∧
    (c.vecFixed = true →
      csrRead (State.resetWith c) .mtvec = (c.mtvecFixed &&& 0xFFFFFFC0) ||| 3 ∧
      csrRead (State.resetWith c) .mtvt = c.mtvtFixed &&& 0xFFFFFFC0 ∧
      csrRead (State.resetWith c) .jvt = c.jvtFixed &&& 0xFFFFFFC0) ∧
    csrRead (State.resetWith c) .mcause = 0x30000000 ∧
    csrRead (State.resetWith c) .mcountinhibit = 0 ∧ csrRead (State.resetWith c) .mcycle = 0 ∧
    csrRead (State.resetWith c) .minstret = 0 ∧ csrRead (State.resetWith c) .tcontrol = 0 ∧
    (State.resetWith c).csr.wfe = true ∧ (State.resetWith c).csr.exptVld = false ∧
    (State.resetWith c).csr.lockup = false ∧ (State.resetWith c).csr.lpmd = 0 ∧ (State.resetWith c).csr.softRst = 0 ∧
    (State.resetWith c).dbg.debugMode = false ∧ (State.resetWith c).sleeping = false ∧
    tcipRead (State.resetWith c) .word 0xE0000000 = some 0 ∧
    (c.hasCounters = true → tcipRead (State.resetWith c) .word 0xE0004000 = some 0xFFFFFFFF) ∧
    (c.hasCounters = true → tcipRead (State.resetWith c) .word 0xE000BFF8 = some 0) ∧
    tcipRead (State.resetWith c) .word 0xE0800000 = some 0x00000001 ∧
    tcipRead (State.resetWith c) .word 0xE0801040 = some 0x10C00000 ∧
    winner (State.resetWith c) = none

/-- R463, R480 to R482: a reset the platform makes in a run gives the pc, the CSRs and the memory-mapped registers the values
R481 states, whatever the hart was doing; a reset of the core keeps memory and what lies outside the core, one of the
system leaves the memory the platform says. With a reset-halt request the hart is then in debug mode with cause 5 and
dpc = RESET_ADDR. What R481 leaves unspecified is free (notes/assumptions/51.md). The model's choices:
the coprocessors' history is kept by both resets (51.md, 36.md), and the devices' by a system reset too, where R482 leaves it to
the platform (51.md, 6.md); and cliccfg's reset value has NLBITS 0 (27.md). -/
def Obligations.PlatformResetRestartsTheCore : Prop :=
  ∀ (s : State) (r : PlatformReset), s.cfg.wf = true → (nextInput s).reset = some r →
    ∃ t, step s = .next t ∧ t.pc = BitVec.ofNat 32 s.cfg.resetAddr.toNat ∧ csrRead t .mstatus = 0x00001800 ∧
      csrRead t .mtvec = csrRead (State.resetWith s.cfg) .mtvec ∧
      csrRead t .mtvt = csrRead (State.resetWith s.cfg) .mtvt ∧ csrRead t .mcause = 0x30000000 ∧
      csrRead t .mcountinhibit = 0 ∧ csrRead t .mcycle = 0 ∧ csrRead t .minstret = 0 ∧ csrRead t .tcontrol = 0 ∧
      csrRead t .mexstatus = csrRead (State.resetWith s.cfg) .mexstatus ∧
      t.dbg.triggers = s.cfg.triggers.map resetTrigger ∧
      t.clic = { msip := false, mtimecmp := 0xFFFFFFFF, nlbits := 0, sources := Vector.replicate 128 resetSource } ∧
      winner t = none ∧ t.sleeping = false ∧ t.trapStack = [] ∧ t.cfg = s.cfg ∧ t.cop = s.cop ∧ t.devices = s.devices ∧
      (match r with
        | .core => SameMem s t
        | .system cells => t.mem = Memory.ofCells cells) ∧
      (if (nextInput s).request = some .resetHalt ∧ s.hasDebug = true then
        t.dbg.debugMode = true ∧ csrRead t .dpc = t.pc ∧ (csrRead t .dcsr).extractLsb' 6 3 = 5 ∧
          csrRead t .mhaltcause = 5
      else t.dbg.debugMode = false)

/-! ## Debug mode (60_exceptions.md R465 to R472) -/

/-- R466, R469, R471, R472: a synchronous request halts the hart at the boundary, awake, asleep or locked up, and so does an
asynchronous one; an armed trigger makes it halt, raise the breakpoint exception where MTE allows that, or do nothing,
and a single step halts it after its instruction. The model's choices: which of those an armed trigger does, and
dcsr.CAUSE after an asynchronous request, are free values (notes/assumptions/38.md, 52.md); an asynchronous request that
meets the hart inside an instruction, which R471 gives no state, stops by name; a request is decided before a pending
interrupt; and a single step halts the hart also where its instruction raised an exception or locked it up, but leaves the cause 1 of an
EBREAK that has entered debug mode itself (56.md). -/
def Obligations.DebugEntry : Prop :=
  (∀ s : State, Undisturbed s → s.dbg.debugMode = false → s.hasDebug = true →
    ((nextInput s).request = some .sync → Halts s 3 3) ∧
    ((nextInput s).request = some .async → Halts s Config.asyncCause 8) ∧
    ((nextInput s).request = some .asyncInside →
      (s.csr.lockup = true ∨ s.sleeping = true → Halts s Config.asyncCause 8) ∧
      (s.csr.lockup = false → s.sleeping = false → step s = .refused .asyncDebugRequest))) ∧
    (∀ s : State, Running s → s.sleeping = false → NoInterrupt s →
      (s.hasDebug = false ∨ s.dbg.triggers.any (armed s) = false →
        step s = afterInstr (runInstr (sample s (nextInput s)))) ∧
      (s.hasDebug = true →
        step s = afterInstr (runInstr (sample s (nextInput s))) ∨
          (s.dbg.mte = true ∧ step s = .next (raise (sample s (nextInput s)) 3)) ∨ Halts s 2 2)) ∧
    ∀ s : State, Quiet s → s.hasDebug = true → s.dbg.step = true →
      let u := sample s (nextInput s)
      (∀ (t : State) (i : Instr), CanFetch u → decode (fetchBytes s) = .ok i → exec i u = .next t →
        t.dbg.debugMode = false → t.dbg.step = true → t.cfg = s.cfg → ∃ v, step s = .next v ∧ HaltedFrom t v 4 4) ∧
      (FetchError u → ∃ v, step s = .next v ∧ HaltedFrom (raise u 1) v 4 4) ∧
      (s.dbg.ebreakm = true → CanFetch u → ∀ i ∈ [Instr.ebreak, .cEbreak], decode (fetchBytes s) = .ok i →
        ∃ v, step s = .next v ∧ HaltedFrom u v 1 1)

/-- R465 to R467 and R470: what the debugger does with a halted hart: nothing; a register, a CSR, memory, a device or a TCIP
register written, and nothing else changed; a read, which only a device notices; an instruction executed, alone or in the
program buffer; the resume at dpc. The word 0x0000100F is FENCE.I and 0x00100073 EBREAK. That the pc and the low-power state
stay while supplied instructions run is the model's (notes/assumptions/37.md), and so are: that a misaligned access or one
answered by ERROR does nothing (37.md), what a write of mhcr (13.md) and of mscratchcswl (17.md) does, that memory is written in
the instruction-bus region too (43.md), how wide a program buffer and itr are (58.md), and what R417 compares with 0x1FFFFC (55.md). -/
def Obligations.DebuggerCommands : Prop :=
  ∀ s : State, Halted s →
    let u := sample s (nextInput s)
    ((nextInput s).command = none → step s = .next u ∧ u.pc = s.pc ∧ SameRegsBut [] s u ∧ SameMem s u) ∧
    (∀ r v, (nextInput s).command = some (.writeGpr r v) →
      ∃ t, step s = .next t ∧ t.x r = written r v ∧ SameRegsBut [r] s t ∧ t.pc = s.pc ∧ SameMem s t ∧
        t.stale = s.stale ∧ t.ctr = u.ctr ∧ SameSystem u t) ∧
    (∀ c v, (nextInput s).command = some (.writeCsr c v) →
      (s.cfg.hasCounters = true ∨ c ∉ [.mcountinhibit, .mcycle, .minstret]) →
      ∃ t, step s = .next t ∧ t.csr = (csrWrite u c v).csr ∧ t.dbg = (csrWrite u c v).dbg ∧
        t.ctr = (csrWrite u c v).ctr ∧ SameRegsBut [] s t ∧ SameMem s t ∧ t.stale = s.stale ∧ t.pc = s.pc ∧
        SameSystem { u with csr := t.csr, dbg := t.dbg, ctr := t.ctr } t) ∧
    (∀ w a v, (nextInput s).command = some (.writeMem w a v) →
      misaligned w a = true ∨ inTcip a = false ∧ response u .store (mainAddr a) = .error → step s = .next u) ∧
    (∀ w a v, (nextInput s).command = some (.writeMem w a v) → misaligned w a = false →
      (inTcip a = false → response u .store (mainAddr a) = .memory → Memory.wf s.mem →
        ∃ t, step s = .next t ∧ HoldsBytes t (mainAddr a) w.bytes v ∧ SameMemBut (InBytes (mainAddr a) w.bytes) s t ∧
          (∀ b, b ∈ t.stale ↔ b ∈ s.stale ∨ InBytes (mainAddr a) w.bytes b) ∧ SameRegsBut [] s t ∧ t.pc = s.pc ∧
          t.ctr = u.ctr ∧ SameSystem u t) ∧
      (inTcip a = false → response u .store (mainAddr a) = .device →
        ∃ t, step s = .next t ∧
          t.devices = { deviceQuery .store w a with data := BitVec.ofNat 32 (v.toNat % 2 ^ (8 * w.bytes)) } :: s.devices ∧
          (∀ b, b ∈ t.stale ↔ b ∈ s.stale ∨ InBytes (mainAddr a) w.bytes b) ∧ SameRegsBut [] s t ∧ SameMem s t ∧
          t.pc = s.pc ∧ t.ctr = u.ctr ∧ SameSystem { u with devices := t.devices } t) ∧
      (∀ t, inTcip a = true → tcipWrite u w a.toNat v = .ok t → step s = .next t)) ∧
    (∀ w a, (nextInput s).command = some (.readMem w a) →
      step s = .next
        (if misaligned w a = false ∧ inTcip a = false ∧ response u .load (mainAddr a) = .device then
          { u with devices := deviceQuery .load w a :: u.devices } else u)) ∧
    ((nextInput s).command = some (.progbuf 0x0000100F 0x00100073) →
      ∃ t, step s = .next t ∧ t.stale = [] ∧ SameRegsBut [] s t ∧ SameMem s t ∧ t.pc = s.pc ∧ SameSystem u t ∧
        CountedOne u t) ∧
    (∀ w i t, (nextInput s).command = some (.itr w) → decode (leBytes 4 w.toNat) = .ok i → usesPc i = false →
      isBreak i = false → exec i u = .next t → t.trapStack = s.trapStack → t.pc ≠ s.pc →
      step s = .next { t with pc := s.pc, sleeping := s.sleeping }) ∧
    ((nextInput s).command = some .resume → LowPc s.dbg.dpc → s.dbg.dpc.getLsbD 0 = false →
      ∃ t, step s = .next t ∧ t.pc = s.dbg.dpc ∧ t.dbg = { u.dbg with debugMode := false } ∧ t.trapStack = [] ∧
        SameRegsBut [] s t ∧ SameMem s t ∧ t.stale = s.stale ∧ t.ctr = u.ctr ∧
        (s.csr.lockup = false ∨ s.dbg.dpc = 0x1FFFFC → t.csr = u.csr) ∧
        (s.csr.lockup = true → s.dbg.dpc ≠ 0x1FFFFC → t.csr = { u.csr with lockup := false, exptVld := false }) ∧
        SameSystem { u with csr := t.csr, dbg := t.dbg, trapStack := t.trapStack } t)
end

