-- ==== Sys2Proof/Laws/Decode.lean ====
section
/-!
SUPPORT. The decoder on the bytes of a 32-bit value and of a 16-bit parcel, and the fields of a sum.
-/

namespace Sys2Proof

theorem parcel_ofNat (w v : Nat) :
    parcel (BitVec.ofNat 8 w) (BitVec.ofNat 8 v) = w % 256 + v % 256 * 256 := by
  simp [parcel]

/-- The two low bytes of a value are its low parcel. -/
theorem parcel_low (w : Nat) : parcel (BitVec.ofNat 8 w) (BitVec.ofNat 8 (w / 256)) = w % 65536 := by
  rw [parcel_ofNat]; omega

/-- The bytes of a 32-bit value whose low bits give the length 4 are decoded by the 32-bit decoder (30_encoding.md R141). -/
theorem decode_leBytes_wide {w : Nat} (hw : w < 2 ^ 32) (h3 : w % 4 = 3) (h31 : w % 32 ≠ 31) :
    decode (leBytes 4 w) = decode32 w := by
  have hp : parcel (BitVec.ofNat 8 w) (BitVec.ofNat 8 (w / 2 ^ 8)) = w % 65536 := parcel_low w
  have hq : parcel (BitVec.ofNat 8 (w / 2 ^ 8 / 2 ^ 8)) (BitVec.ofNat 8 (w / 2 ^ 8 / 2 ^ 8 / 2 ^ 8)) = w / 65536 := by
    rw [parcel_ofNat]; omega
  have h1 : ¬ w % 65536 % 4 ≠ 3 := by omega
  have h2 : ¬ w % 65536 % 32 = 31 := by omega
  simp only [leBytes, decode, hp, hq, h1, h2, if_false]
  congr 1
  omega

/-- The bytes of a parcel whose low bits give the length 2 are decoded by the 16-bit decoder (30_encoding.md R141). -/
theorem decode_leBytes_narrow {p : Nat} (hp : p < 2 ^ 16) (h3 : p % 4 ≠ 3) : decode (leBytes 2 p) = decode16 p := by
  have h : parcel (BitVec.ofNat 8 p) (BitVec.ofNat 8 (p / 2 ^ 8)) = p := by rw [parcel_ofNat]; omega
  simp only [leBytes, decode, h, h3, ne_eq, not_false_eq_true, if_true]

/-- What `decodeTableWord` answers for a 32-bit value that `decode32` reads. -/
theorem decodeTableWord_wide {w : Nat} {i : Instr} (hw : w < 2 ^ 32) (h3 : w % 4 = 3) (h31 : w % 32 ≠ 31)
    (h : decode32 w = .ok i) : decodeTableWord 32 w = some i := by
  unfold decodeTableWord
  rw [Nat.mod_eq_of_lt hw, decode_leBytes_wide hw h3 h31, h]

/-- What `decodeTableWord` answers for a parcel that `decode16` reads. -/
theorem decodeTableWord_narrow {p : Nat} {i : Instr} (hp : p < 2 ^ 16) (h3 : p % 4 ≠ 3)
    (h : decode16 p = .ok i) : decodeTableWord 16 p = some i := by
  have e : parcel (BitVec.ofNat 8 p) (BitVec.ofNat 8 (p / 2 ^ 8)) = p := by rw [parcel_ofNat]; omega
  unfold decodeTableWord
  rw [Nat.mod_eq_of_lt hp]
  simp only [leBytes, decode, e, h3, ne_eq, not_false_eq_true, if_true, h]

/-- A register field below 16 names its register (30_encoding.md R161). -/
theorem withReg_val (r : Reg) (k : Reg → Except Reject Instr) : withReg r.val k = k r := by
  simp [withReg]

/-- A register field above 15 is illegal (30_encoding.md R161). -/
theorem withReg_illegal {n : Nat} (h : 16 ≤ n) (k : Reg → Except Reject Instr) : withReg n k = .error .illegal := by
  have : ¬ n < 16 := by omega
  simp [withReg, this]

end Sys2Proof
end

