-- ==== Sys2Proof/Laws/Memory.lean ====
section
/-!
SUPPORT. Main memory: reading after writing, and the canonical form, which every memory operation keeps.
-/

namespace Sys2Proof.Machine

/-- An address below every listed one reads as unwritten. -/
theorem readByte_below {m : List Host.Cell} {a : Nat} (h : ∀ c ∈ m, a < c.1) : Memory.readByte m a = unwritten := by
  induction m with
  | nil => rfl
  | cons c m ih =>
    obtain ⟨k, v⟩ := c
    have hk : a < k := h (k, v) (by simp)
    simp only [Memory.readByte, if_neg (by omega : ¬ k = a)]
    exact ih fun c hc => h c (by simp [hc])

/-- The byte just written is read, in a memory whose addresses rise. -/
theorem readByte_writeByte_same {m : List Host.Cell} (h : m.Pairwise fun c d => c.1 < d.1) (a : Nat) (v : Byte) :
    Memory.readByte (Memory.writeByte m a v) a = v := by
  induction m with
  | nil =>
    by_cases hv : v = unwritten <;> simp [Memory.writeByte, Memory.readByte, hv]
  | cons c m ih =>
    obtain ⟨k, w⟩ := c
    have hm : ∀ d ∈ m, k < d.1 := fun d hd => (List.pairwise_cons.mp h).1 d hd
    simp only [Memory.writeByte]
    by_cases h1 : a < k
    · by_cases hv : v = unwritten
      · simp only [h1, hv, if_true, Memory.readByte, if_neg (by omega : ¬ k = a)]
        exact readByte_below fun d hd => by have := hm d hd; omega
      · simp [h1, hv, Memory.readByte]
    · by_cases h2 : a = k
      · subst h2
        by_cases hv : v = unwritten
        · simp only [h1, hv, if_false, if_true]
          exact readByte_below hm
        · simp [hv, Memory.readByte]
      · simp only [h1, h2, if_false, Memory.readByte, if_neg (by omega : ¬ k = a)]
        exact ih (List.pairwise_cons.mp h).2

/-- A write leaves every other byte alone. -/
theorem readByte_writeByte_other (m : List Host.Cell) {a b : Nat} (v : Byte) (h : b ≠ a) :
    Memory.readByte (Memory.writeByte m a v) b = Memory.readByte m b := by
  induction m with
  | nil =>
    by_cases hv : v = unwritten <;> simp [Memory.writeByte, Memory.readByte, hv, h.symm]
  | cons c m ih =>
    obtain ⟨k, w⟩ := c
    simp only [Memory.writeByte]
    split
    · split <;> simp [Memory.readByte, h.symm]
    · split
      · rename_i h2
        subst h2
        split <;> simp [Memory.readByte, h.symm]
      · simp [Memory.readByte, ih]

/-- Every address of a memory with one byte written was listed, or is the written one with a listed value. -/
theorem mem_writeByte {m : List Host.Cell} {a : Nat} {v : Byte} {c : Host.Cell} (h : c ∈ Memory.writeByte m a v) :
    c ∈ m ∨ (c = (a, v) ∧ v ≠ unwritten) := by
  induction m with
  | nil =>
    simp only [Memory.writeByte] at h
    split at h
    · simp at h
    · rename_i hv; right; simp at h; exact ⟨h, hv⟩
  | cons d m ih =>
    obtain ⟨k, w⟩ := d
    simp only [Memory.writeByte] at h
    split at h
    · split at h
      · exact .inl h
      · rename_i hv
        rcases List.mem_cons.mp h with h | h
        · exact .inr ⟨h, hv⟩
        · exact .inl h
    · split at h
      · split at h
        · exact .inl (by simp [h])
        · rename_i hv
          rcases List.mem_cons.mp h with h | h
          · exact .inr ⟨h, hv⟩
          · exact .inl (by simp [h])
      · rcases List.mem_cons.mp h with h | h
        · exact .inl (by simp [h])
        · rcases ih h with h | h
          · exact .inl (by simp [h])
          · exact .inr h

/-- The addresses of a memory with one byte written still rise. -/
theorem writeByte_rising {m : List Host.Cell} (h : m.Pairwise fun c d => c.1 < d.1) (a : Nat) (v : Byte) :
    (Memory.writeByte m a v).Pairwise fun c d => c.1 < d.1 := by
  induction m with
  | nil => by_cases hv : v = unwritten <;> simp [Memory.writeByte, hv]
  | cons c m ih =>
    obtain ⟨k, w⟩ := c
    obtain ⟨hk, hm⟩ := List.pairwise_cons.mp h
    simp only [Memory.writeByte]
    split
    · rename_i h1
      split
      · exact h
      · refine List.pairwise_cons.mpr ⟨fun d hd => ?_, h⟩
        rcases List.mem_cons.mp hd with rfl | hd
        · exact h1
        · have := hk d hd; simp only at this ⊢; omega
    · split
      · rename_i h2
        subst h2
        split
        · exact hm
        · exact List.pairwise_cons.mpr ⟨hk, hm⟩
      · rename_i h1 h2
        refine List.pairwise_cons.mpr ⟨fun d hd => ?_, ih hm⟩
        rcases mem_writeByte hd with hd | ⟨rfl, _⟩
        · exact hk d hd
        · simp only; omega

/-- Writing a byte inside the main space keeps the canonical form. -/
theorem writeByte_wf {m : List Host.Cell} (h : Memory.wf m) {a : Nat} (ha : a < mainSize) (v : Byte) :
    Memory.wf (Memory.writeByte m a v) := by
  refine ⟨writeByte_rising h.1 a v, fun c hc => ?_⟩
  rcases mem_writeByte hc with hc | ⟨rfl, hv⟩
  · exact h.2 c hc
  · exact ⟨ha, hv⟩

/-- An access that ends inside the main space keeps the canonical form. -/
theorem write_wf {m : List Host.Cell} (h : Memory.wf m) (w : Width) {a : Nat} (ha : a + w.bytes ≤ mainSize) (v : Word) :
    Memory.wf (Memory.write m w a v) := by
  cases w <;> simp only [Width.bytes] at ha <;> simp only [Memory.write]
  · exact writeByte_wf h (by omega) _
  · exact writeByte_wf (writeByte_wf h (by omega) _) (by omega) _
  · exact writeByte_wf (writeByte_wf (writeByte_wf (writeByte_wf h (by omega) _) (by omega) _) (by omega) _) (by omega) _

/-- A write changes only the bytes of its width. -/
theorem readByte_write_other (m : List Host.Cell) (w : Width) {a b : Nat} (v : Word) (h : b < a ∨ a + w.bytes ≤ b) :
    Memory.readByte (Memory.write m w a v) b = Memory.readByte m b := by
  cases w <;> simp only [Width.bytes] at h <;> simp only [Memory.write]
  · rw [readByte_writeByte_other _ _ (by omega)]
  · rw [readByte_writeByte_other _ _ (by omega), readByte_writeByte_other _ _ (by omega)]
  · rw [readByte_writeByte_other _ _ (by omega), readByte_writeByte_other _ _ (by omega),
      readByte_writeByte_other _ _ (by omega), readByte_writeByte_other _ _ (by omega)]

/-- A naturally aligned main-space address leaves room for its access. -/
theorem aligned_room {w : Width} {a : Word} (h : misaligned w a = false) : mainAddr a + w.bytes ≤ mainSize := by
  have hm : a.toNat % w.bytes = 0 := by simpa [misaligned] using h
  cases w <;> simp only [Width.bytes] at hm ⊢ <;> simp only [mainAddr, mainSize] <;> omega

/-- The bytes a write stores are read back, low byte first (20_memory.md R111). -/
theorem readByte_write_same {m : List Host.Cell} (h : m.Pairwise fun c d => c.1 < d.1) (w : Width) (a : Nat) (v : Word)
    {k : Nat} (hk : k < w.bytes) :
    Memory.readByte (Memory.write m w a v) (a + k) = v.extractLsb' (8 * k) 8 := by
  have r0 := writeByte_rising h a (v.extractLsb' 0 8)
  have r1 := writeByte_rising r0 (a + 1) (v.extractLsb' 8 8)
  have r2 := writeByte_rising r1 (a + 2) (v.extractLsb' 16 8)
  cases w
  · obtain rfl : k = 0 := by simp only [Width.bytes] at hk; omega
    exact readByte_writeByte_same h _ _
  · have : k = 0 ∨ k = 1 := by simp only [Width.bytes] at hk; omega
    rcases this with rfl | rfl
    · exact (readByte_writeByte_other _ _ (by omega)).trans (readByte_writeByte_same h _ _)
    · exact readByte_writeByte_same r0 _ _
  · have : k = 0 ∨ k = 1 ∨ k = 2 ∨ k = 3 := by simp only [Width.bytes] at hk; omega
    rcases this with rfl | rfl | rfl | rfl
    · exact (readByte_writeByte_other _ _ (by omega)).trans ((readByte_writeByte_other _ _ (by omega)).trans
        ((readByte_writeByte_other _ _ (by omega)).trans (readByte_writeByte_same h _ _)))
    · exact (readByte_writeByte_other _ _ (by omega)).trans ((readByte_writeByte_other _ _ (by omega)).trans
        (readByte_writeByte_same r0 _ _))
    · exact (readByte_writeByte_other _ _ (by omega)).trans (readByte_writeByte_same r1 _ _)
    · exact readByte_writeByte_same r2 _ _

/-- A word is read back as it was written. -/
theorem read_write_word {m : List Host.Cell} (h : m.Pairwise fun c d => c.1 < d.1) (a : Nat) (v : Word) :
    Memory.read (Memory.write m .word a v) .word a = v := by
  have e0 := readByte_write_same h .word a v (k := 0) (by decide)
  have e1 := readByte_write_same h .word a v (k := 1) (by decide)
  have e2 := readByte_write_same h .word a v (k := 2) (by decide)
  have e3 := readByte_write_same h .word a v (k := 3) (by decide)
  simp only [Nat.add_zero, Nat.mul_zero, Nat.mul_one] at e0 e1 e2 e3
  rw [Memory.read, e0, e1, e2, e3]
  ext i hi
  simp only [BitVec.getElem_append, BitVec.getElem_extractLsb']
  repeat' split
  all_goals (try rw [BitVec.getLsbD_eq_getElem (by omega)])
  all_goals (congr 1; omega)

/-- Two words at word-aligned addresses do not overlap, so a write to one leaves the other. -/
theorem read_write_word_other (m : List Host.Cell) {a b : Nat} (v : Word) (h : b + 4 ≤ a ∨ a + 4 ≤ b) :
    Memory.read (Memory.write m .word a v) .word b = Memory.read m .word b := by
  simp only [Memory.read]
  rw [readByte_write_other m .word v (by simp only [Width.bytes]; omega),
    readByte_write_other m .word v (by simp only [Width.bytes]; omega),
    readByte_write_other m .word v (by simp only [Width.bytes]; omega),
    readByte_write_other m .word v (by simp only [Width.bytes]; omega)]

/-- A written address joins the list; the others stay. -/
theorem mem_insertAddr (l : List Nat) (a b : Nat) : b ∈ insertAddr l a ↔ b ∈ l ∨ b = a := by
  induction l with
  | nil => simp [insertAddr]
  | cons k l ih =>
    simp only [insertAddr]
    split
    · simp only [List.mem_cons]; tauto
    · split
      · subst_vars; simp only [List.mem_cons]; tauto
      · simp only [List.mem_cons, ih]; tauto

/-- The addresses of an access join the list; the others stay (20_memory.md R122). -/
theorem mem_insertAddrs (l : List Nat) (a n b : Nat) : b ∈ insertAddrs l a n ↔ b ∈ l ∨ (a ≤ b ∧ b < a + n) := by
  induction n generalizing l a with
  | zero => simp [insertAddrs]
  | succ n ih =>
    simp only [insertAddrs, ih, mem_insertAddr]
    constructor
    · rintro ((h | h) | h)
      · exact .inl h
      · exact .inr (by omega)
      · exact .inr (by omega)
    · rintro (h | h)
      · exact .inl (.inl h)
      · by_cases hb : b = a
        · exact .inl (.inr hb)
        · exact .inr (by omega)

/-- Some byte of an access is stale exactly when a listed address lies in it. -/
theorem isStale_iff (l : List Nat) (a n : Nat) : isStale l a n = true ↔ ∃ b ∈ l, a ≤ b ∧ b < a + n := by
  induction n generalizing a with
  | zero => simp [isStale]
  | succ n ih =>
    simp only [isStale, Bool.or_eq_true, List.contains_iff_mem, ih]
    constructor
    · rintro (h | ⟨b, h, h'⟩)
      · exact ⟨a, h, by omega⟩
      · exact ⟨b, h, by omega⟩
    · rintro ⟨b, h, h'⟩
      by_cases hb : b = a
      · exact .inl (hb ▸ h)
      · exact .inr ⟨b, h, by omega⟩

/-- A list of bytes placed in an empty memory gives the canonical form, whatever the list. -/
theorem ofCells_wf (l : List Host.Cell) : Memory.wf (Memory.ofCells l) := by
  have main : ∀ m, Memory.wf m → Memory.wf (l.foldl (fun m c => Memory.writeByte m (c.1 % mainSize) c.2) m) := by
    induction l with
    | nil => exact fun m h => h
    | cons c l ih => exact fun m h => ih _ (writeByte_wf h (Nat.mod_lt _ (by decide)) _)
  exact main [] (by decide)

/-- The memory after reset is in canonical form. -/
theorem reset_mem_wf : Memory.wf State.reset.mem := by decide

end Sys2Proof.Machine
end

