-- ==== Sys2Proof/Laws/State.lean ====
section
/-!
SUPPORT. One lemma per field for each update of the state: what the update leaves as it was.
-/

namespace Sys2Proof.Machine

/-! ## Register writes (10_state.md R20, R21) -/

@[simp] theorem setX_cfg (s : State) (r : Reg) (v : Word) : (s.setX r v).cfg = s.cfg := by unfold State.setX; split <;> rfl
@[simp] theorem setX_pc (s : State) (r : Reg) (v : Word) : (s.setX r v).pc = s.pc := by unfold State.setX; split <;> rfl
@[simp] theorem setX_csr (s : State) (r : Reg) (v : Word) : (s.setX r v).csr = s.csr := by unfold State.setX; split <;> rfl
@[simp] theorem setX_ctr (s : State) (r : Reg) (v : Word) : (s.setX r v).ctr = s.ctr := by unfold State.setX; split <;> rfl
@[simp] theorem setX_dbg (s : State) (r : Reg) (v : Word) : (s.setX r v).dbg = s.dbg := by unfold State.setX; split <;> rfl
@[simp] theorem setX_clic (s : State) (r : Reg) (v : Word) : (s.setX r v).clic = s.clic := by unfold State.setX; split <;> rfl
@[simp] theorem setX_pins (s : State) (r : Reg) (v : Word) : (s.setX r v).pins = s.pins := by unfold State.setX; split <;> rfl
@[simp] theorem setX_mem (s : State) (r : Reg) (v : Word) : (s.setX r v).mem = s.mem := by unfold State.setX; split <;> rfl
@[simp] theorem setX_stale (s : State) (r : Reg) (v : Word) : (s.setX r v).stale = s.stale := by unfold State.setX; split <;> rfl
@[simp] theorem setX_sleeping (s : State) (r : Reg) (v : Word) : (s.setX r v).sleeping = s.sleeping := by unfold State.setX; split <;> rfl
@[simp] theorem setX_trapStack (s : State) (r : Reg) (v : Word) : (s.setX r v).trapStack = s.trapStack := by unfold State.setX; split <;> rfl
@[simp] theorem setX_cop (s : State) (r : Reg) (v : Word) : (s.setX r v).cop = s.cop := by unfold State.setX; split <;> rfl
@[simp] theorem setX_devices (s : State) (r : Reg) (v : Word) : (s.setX r v).devices = s.devices := by unfold State.setX; split <;> rfl
@[simp] theorem setX_inputs (s : State) (r : Reg) (v : Word) : (s.setX r v).inputs = s.inputs := by unfold State.setX; split <;> rfl
@[simp] theorem setX_tick (s : State) (r : Reg) (v : Word) : (s.setX r v).tick = s.tick := by unfold State.setX; split <;> rfl

/-- What a register reads after a write (10_state.md R21). -/
theorem x_setX (s : State) (r q : Reg) (v : Word) :
    (s.setX r v).x q = if q = 0 then 0 else if q = r then v else s.x q := by
  by_cases hr : r = 0
  · subst hr
    by_cases hq : q = 0 <;> simp [State.setX, State.x, hq]
  · by_cases hq : q = 0
    · simp [State.x, hq]
    · by_cases h : q = r
      · subst h; simp [State.setX, State.x, hq]
      · have : ¬ r.val = q.val := fun e => h (Fin.ext e.symm)
        simp [State.setX, State.x, hr, hq, h, this]

@[simp] theorem x_zero (s : State) : s.x 0 = 0 := by simp [State.x]

@[simp] theorem setX_zero (s : State) (v : Word) : s.setX 0 v = s := by simp [State.setX]

theorem x_setX_same (s : State) {r : Reg} (v : Word) (h : r ≠ 0) : (s.setX r v).x r = v := by
  simp [x_setX, h]

theorem x_setX_other (s : State) {r q : Reg} (v : Word) (h : q ≠ r) : (s.setX r v).x q = s.x q := by
  by_cases hq : q = 0
  · simp [hq]
  · simp [x_setX, hq, h]

/-- A register reads the same in two states whose register files agree. -/
theorem x_of_regs {s t : State} (h : t.regs = s.regs) (r : Reg) : t.x r = s.x r := by simp [State.x, h]

/-! ## Retiring (10_state.md R26, R49) -/

@[simp] theorem countRetired_cfg (s : State) : (s.countRetired).cfg = s.cfg := by unfold State.countRetired; split <;> rfl
@[simp] theorem countRetired_regs (s : State) : (s.countRetired).regs = s.regs := by unfold State.countRetired; split <;> rfl
@[simp] theorem countRetired_pc (s : State) : (s.countRetired).pc = s.pc := by unfold State.countRetired; split <;> rfl
@[simp] theorem countRetired_csr (s : State) : (s.countRetired).csr = s.csr := by unfold State.countRetired; split <;> rfl
@[simp] theorem countRetired_dbg (s : State) : (s.countRetired).dbg = s.dbg := by unfold State.countRetired; split <;> rfl
@[simp] theorem countRetired_clic (s : State) : (s.countRetired).clic = s.clic := by unfold State.countRetired; split <;> rfl
@[simp] theorem countRetired_pins (s : State) : (s.countRetired).pins = s.pins := by unfold State.countRetired; split <;> rfl
@[simp] theorem countRetired_mem (s : State) : (s.countRetired).mem = s.mem := by unfold State.countRetired; split <;> rfl
@[simp] theorem countRetired_stale (s : State) : (s.countRetired).stale = s.stale := by unfold State.countRetired; split <;> rfl
@[simp] theorem countRetired_sleeping (s : State) : (s.countRetired).sleeping = s.sleeping := by unfold State.countRetired; split <;> rfl
@[simp] theorem countRetired_trapStack (s : State) : (s.countRetired).trapStack = s.trapStack := by unfold State.countRetired; split <;> rfl
@[simp] theorem countRetired_cop (s : State) : (s.countRetired).cop = s.cop := by unfold State.countRetired; split <;> rfl
@[simp] theorem countRetired_devices (s : State) : (s.countRetired).devices = s.devices := by unfold State.countRetired; split <;> rfl
@[simp] theorem countRetired_inputs (s : State) : (s.countRetired).inputs = s.inputs := by unfold State.countRetired; split <;> rfl
@[simp] theorem countRetired_tick (s : State) : (s.countRetired).tick = s.tick := by unfold State.countRetired; split <;> rfl

@[simp] theorem retireTo_cfg (s : State) (t : Word) : (s.retireTo t).cfg = s.cfg := by simp [State.retireTo]
@[simp] theorem retireTo_regs (s : State) (t : Word) : (s.retireTo t).regs = s.regs := by simp [State.retireTo]
@[simp] theorem retireTo_csr (s : State) (t : Word) : (s.retireTo t).csr = s.csr := by simp [State.retireTo]
@[simp] theorem retireTo_dbg (s : State) (t : Word) : (s.retireTo t).dbg = s.dbg := by simp [State.retireTo]
@[simp] theorem retireTo_clic (s : State) (t : Word) : (s.retireTo t).clic = s.clic := by simp [State.retireTo]
@[simp] theorem retireTo_pins (s : State) (t : Word) : (s.retireTo t).pins = s.pins := by simp [State.retireTo]
@[simp] theorem retireTo_mem (s : State) (t : Word) : (s.retireTo t).mem = s.mem := by simp [State.retireTo]
@[simp] theorem retireTo_stale (s : State) (t : Word) : (s.retireTo t).stale = s.stale := by simp [State.retireTo]
@[simp] theorem retireTo_sleeping (s : State) (t : Word) : (s.retireTo t).sleeping = s.sleeping := by simp [State.retireTo]
@[simp] theorem retireTo_trapStack (s : State) (t : Word) : (s.retireTo t).trapStack = s.trapStack := by simp [State.retireTo]
@[simp] theorem retireTo_cop (s : State) (t : Word) : (s.retireTo t).cop = s.cop := by simp [State.retireTo]
@[simp] theorem retireTo_devices (s : State) (t : Word) : (s.retireTo t).devices = s.devices := by simp [State.retireTo]
@[simp] theorem retireTo_inputs (s : State) (t : Word) : (s.retireTo t).inputs = s.inputs := by simp [State.retireTo]
@[simp] theorem retireTo_tick (s : State) (t : Word) : (s.retireTo t).tick = s.tick := by simp [State.retireTo]

@[simp] theorem retire_cfg (s : State) (n : Word) : (s.retire n).cfg = s.cfg := by simp [State.retire]
@[simp] theorem retire_regs (s : State) (n : Word) : (s.retire n).regs = s.regs := by simp [State.retire]
@[simp] theorem retire_csr (s : State) (n : Word) : (s.retire n).csr = s.csr := by simp [State.retire]
@[simp] theorem retire_dbg (s : State) (n : Word) : (s.retire n).dbg = s.dbg := by simp [State.retire]
@[simp] theorem retire_clic (s : State) (n : Word) : (s.retire n).clic = s.clic := by simp [State.retire]
@[simp] theorem retire_pins (s : State) (n : Word) : (s.retire n).pins = s.pins := by simp [State.retire]
@[simp] theorem retire_mem (s : State) (n : Word) : (s.retire n).mem = s.mem := by simp [State.retire]
@[simp] theorem retire_stale (s : State) (n : Word) : (s.retire n).stale = s.stale := by simp [State.retire]
@[simp] theorem retire_sleeping (s : State) (n : Word) : (s.retire n).sleeping = s.sleeping := by simp [State.retire]
@[simp] theorem retire_trapStack (s : State) (n : Word) : (s.retire n).trapStack = s.trapStack := by simp [State.retire]
@[simp] theorem retire_cop (s : State) (n : Word) : (s.retire n).cop = s.cop := by simp [State.retire]
@[simp] theorem retire_devices (s : State) (n : Word) : (s.retire n).devices = s.devices := by simp [State.retire]
@[simp] theorem retire_inputs (s : State) (n : Word) : (s.retire n).inputs = s.inputs := by simp [State.retire]
@[simp] theorem retire_tick (s : State) (n : Word) : (s.retire n).tick = s.tick := by simp [State.retire]

@[simp] theorem retireTo_pc (s : State) (t : Word) : (s.retireTo t).pc = normPc t := by simp [State.retireTo]

@[simp] theorem retire_pc (s : State) (n : Word) : (s.retire n).pc = normPc (s.pc + n) := by simp [State.retire]

@[simp] theorem x_retireTo (s : State) (t : Word) (r : Reg) : (s.retireTo t).x r = s.x r := x_of_regs (by simp) r

@[simp] theorem x_retire (s : State) (n : Word) (r : Reg) : (s.retire n).x r = s.x r := x_of_regs (by simp) r

/-- What retiring does to the counters (10_state.md R49): minstret alone may count. -/
theorem retireTo_ctr (s : State) (t : Word) :
    (s.retireTo t).ctr =
      if countsRetired s then { s.ctr with minstret := s.ctr.minstret + 1 } else s.ctr := by
  have h : countsRetired { s with pc := normPc t } = countsRetired s := rfl
  simp only [State.retireTo, State.countRetired, h]
  split <;> rfl

@[simp] theorem retireTo_mcy (s : State) (t : Word) : (s.retireTo t).ctr.mcy = s.ctr.mcy := by
  rw [retireTo_ctr]; split <;> rfl

@[simp] theorem retireTo_mir (s : State) (t : Word) : (s.retireTo t).ctr.mir = s.ctr.mir := by
  rw [retireTo_ctr]; split <;> rfl

@[simp] theorem retireTo_mcycle (s : State) (t : Word) : (s.retireTo t).ctr.mcycle = s.ctr.mcycle := by
  rw [retireTo_ctr]; split <;> rfl

theorem retireTo_minstret (s : State) (t : Word) :
    (s.retireTo t).ctr.minstret =
      if countsRetired s then s.ctr.minstret + 1 else s.ctr.minstret := by
  rw [retireTo_ctr]; split <;> rfl

/-- Whether minstret counts depends on the build, on MIR and on the debug unit alone (10_state.md R49). -/
theorem countsRetired_congr {s t : State} (hc : t.cfg = s.cfg) (hm : t.ctr.mir = s.ctr.mir) (hd : t.dbg = s.dbg) :
    countsRetired t = countsRetired s := by simp [countsRetired, hc, hm, hd]

@[simp] theorem countsRetired_setX (s : State) (r : Reg) (v : Word) : countsRetired (s.setX r v) = countsRetired s :=
  countsRetired_congr (by simp) (by simp) (by simp)

/-! ## Memory and the stale marks (20_memory.md R122) -/

@[simp] theorem countsRetired_storeMain (s : State) (w : Width) (a : Nat) (v : Word) :
    countsRetired (storeMain s w a v) = countsRetired s := rfl
@[simp] theorem countsRetired_toDevice (s : State) (k : AccessKind) (w : Width) (a : Nat) (v : Word) :
    countsRetired (toDevice s k w a v) = countsRetired s := rfl

@[simp] theorem storeMain_cfg (s : State) (w : Width) (a : Nat) (v : Word) : (storeMain s w a v).cfg = s.cfg := rfl
@[simp] theorem storeMain_regs (s : State) (w : Width) (a : Nat) (v : Word) : (storeMain s w a v).regs = s.regs := rfl
@[simp] theorem storeMain_pc (s : State) (w : Width) (a : Nat) (v : Word) : (storeMain s w a v).pc = s.pc := rfl
@[simp] theorem storeMain_csr (s : State) (w : Width) (a : Nat) (v : Word) : (storeMain s w a v).csr = s.csr := rfl
@[simp] theorem storeMain_ctr (s : State) (w : Width) (a : Nat) (v : Word) : (storeMain s w a v).ctr = s.ctr := rfl
@[simp] theorem storeMain_dbg (s : State) (w : Width) (a : Nat) (v : Word) : (storeMain s w a v).dbg = s.dbg := rfl
@[simp] theorem storeMain_clic (s : State) (w : Width) (a : Nat) (v : Word) : (storeMain s w a v).clic = s.clic := rfl
@[simp] theorem storeMain_pins (s : State) (w : Width) (a : Nat) (v : Word) : (storeMain s w a v).pins = s.pins := rfl
@[simp] theorem storeMain_sleeping (s : State) (w : Width) (a : Nat) (v : Word) : (storeMain s w a v).sleeping = s.sleeping := rfl
@[simp] theorem storeMain_trapStack (s : State) (w : Width) (a : Nat) (v : Word) : (storeMain s w a v).trapStack = s.trapStack := rfl
@[simp] theorem storeMain_cop (s : State) (w : Width) (a : Nat) (v : Word) : (storeMain s w a v).cop = s.cop := rfl
@[simp] theorem storeMain_devices (s : State) (w : Width) (a : Nat) (v : Word) : (storeMain s w a v).devices = s.devices := rfl
@[simp] theorem storeMain_inputs (s : State) (w : Width) (a : Nat) (v : Word) : (storeMain s w a v).inputs = s.inputs := rfl
@[simp] theorem storeMain_tick (s : State) (w : Width) (a : Nat) (v : Word) : (storeMain s w a v).tick = s.tick := rfl

@[simp] theorem storeMain_mem (s : State) (w : Width) (a : Nat) (v : Word) :
    (storeMain s w a v).mem = Memory.write s.mem w a v := rfl

@[simp] theorem storeMain_stale (s : State) (w : Width) (a : Nat) (v : Word) :
    (storeMain s w a v).stale = insertAddrs s.stale a w.bytes := rfl

@[simp] theorem x_storeMain (s : State) (w : Width) (a : Nat) (v : Word) (r : Reg) :
    (storeMain s w a v).x r = s.x r := rfl

@[simp] theorem placeByte_cfg (s : State) (a : Nat) (v : Byte) : (placeByte s a v).cfg = s.cfg := rfl
@[simp] theorem placeByte_regs (s : State) (a : Nat) (v : Byte) : (placeByte s a v).regs = s.regs := rfl
@[simp] theorem placeByte_pc (s : State) (a : Nat) (v : Byte) : (placeByte s a v).pc = s.pc := rfl
@[simp] theorem placeByte_csr (s : State) (a : Nat) (v : Byte) : (placeByte s a v).csr = s.csr := rfl
@[simp] theorem placeByte_ctr (s : State) (a : Nat) (v : Byte) : (placeByte s a v).ctr = s.ctr := rfl
@[simp] theorem placeByte_dbg (s : State) (a : Nat) (v : Byte) : (placeByte s a v).dbg = s.dbg := rfl
@[simp] theorem placeByte_clic (s : State) (a : Nat) (v : Byte) : (placeByte s a v).clic = s.clic := rfl
@[simp] theorem placeByte_pins (s : State) (a : Nat) (v : Byte) : (placeByte s a v).pins = s.pins := rfl
@[simp] theorem placeByte_sleeping (s : State) (a : Nat) (v : Byte) : (placeByte s a v).sleeping = s.sleeping := rfl
@[simp] theorem placeByte_trapStack (s : State) (a : Nat) (v : Byte) : (placeByte s a v).trapStack = s.trapStack := rfl
@[simp] theorem placeByte_cop (s : State) (a : Nat) (v : Byte) : (placeByte s a v).cop = s.cop := rfl
@[simp] theorem placeByte_devices (s : State) (a : Nat) (v : Byte) : (placeByte s a v).devices = s.devices := rfl
@[simp] theorem placeByte_inputs (s : State) (a : Nat) (v : Byte) : (placeByte s a v).inputs = s.inputs := rfl
@[simp] theorem placeByte_tick (s : State) (a : Nat) (v : Byte) : (placeByte s a v).tick = s.tick := rfl

/-! ## Devices (20_memory.md R102, R116) -/

@[simp] theorem toDevice_cfg (s : State) (k : AccessKind) (w : Width) (a : Nat) (v : Word) : (toDevice s k w a v).cfg = s.cfg := rfl
@[simp] theorem toDevice_regs (s : State) (k : AccessKind) (w : Width) (a : Nat) (v : Word) : (toDevice s k w a v).regs = s.regs := rfl
@[simp] theorem toDevice_pc (s : State) (k : AccessKind) (w : Width) (a : Nat) (v : Word) : (toDevice s k w a v).pc = s.pc := rfl
@[simp] theorem toDevice_csr (s : State) (k : AccessKind) (w : Width) (a : Nat) (v : Word) : (toDevice s k w a v).csr = s.csr := rfl
@[simp] theorem toDevice_ctr (s : State) (k : AccessKind) (w : Width) (a : Nat) (v : Word) : (toDevice s k w a v).ctr = s.ctr := rfl
@[simp] theorem toDevice_dbg (s : State) (k : AccessKind) (w : Width) (a : Nat) (v : Word) : (toDevice s k w a v).dbg = s.dbg := rfl
@[simp] theorem toDevice_clic (s : State) (k : AccessKind) (w : Width) (a : Nat) (v : Word) : (toDevice s k w a v).clic = s.clic := rfl
@[simp] theorem toDevice_pins (s : State) (k : AccessKind) (w : Width) (a : Nat) (v : Word) : (toDevice s k w a v).pins = s.pins := rfl
@[simp] theorem toDevice_mem (s : State) (k : AccessKind) (w : Width) (a : Nat) (v : Word) : (toDevice s k w a v).mem = s.mem := rfl
@[simp] theorem toDevice_stale (s : State) (k : AccessKind) (w : Width) (a : Nat) (v : Word) : (toDevice s k w a v).stale = s.stale := rfl
@[simp] theorem toDevice_sleeping (s : State) (k : AccessKind) (w : Width) (a : Nat) (v : Word) : (toDevice s k w a v).sleeping = s.sleeping := rfl
@[simp] theorem toDevice_trapStack (s : State) (k : AccessKind) (w : Width) (a : Nat) (v : Word) : (toDevice s k w a v).trapStack = s.trapStack := rfl
@[simp] theorem toDevice_cop (s : State) (k : AccessKind) (w : Width) (a : Nat) (v : Word) : (toDevice s k w a v).cop = s.cop := rfl
@[simp] theorem toDevice_inputs (s : State) (k : AccessKind) (w : Width) (a : Nat) (v : Word) : (toDevice s k w a v).inputs = s.inputs := rfl
@[simp] theorem toDevice_tick (s : State) (k : AccessKind) (w : Width) (a : Nat) (v : Word) : (toDevice s k w a v).tick = s.tick := rfl

@[simp] theorem toDevice_devices (s : State) (k : AccessKind) (w : Width) (a : Nat) (v : Word) :
    (toDevice s k w a v).devices = { kind := k, addr := a, bytes := w.bytes, data := lowBytes w v } :: s.devices := rfl

@[simp] theorem x_toDevice (s : State) (k : AccessKind) (w : Width) (a : Nat) (v : Word) (r : Reg) :
    (toDevice s k w a v).x r = s.x r := rfl

/-! ## Stores to devices (20_memory.md R102, R122) -/

@[simp] theorem countsRetired_storeDevice (s : State) (w : Width) (a : Nat) (v : Word) :
    countsRetired (storeDevice s w a v) = countsRetired s := rfl

@[simp] theorem storeDevice_cfg (s : State) (w : Width) (a : Nat) (v : Word) : (storeDevice s w a v).cfg = s.cfg := rfl
@[simp] theorem storeDevice_regs (s : State) (w : Width) (a : Nat) (v : Word) : (storeDevice s w a v).regs = s.regs := rfl
@[simp] theorem storeDevice_pc (s : State) (w : Width) (a : Nat) (v : Word) : (storeDevice s w a v).pc = s.pc := rfl
@[simp] theorem storeDevice_csr (s : State) (w : Width) (a : Nat) (v : Word) : (storeDevice s w a v).csr = s.csr := rfl
@[simp] theorem storeDevice_ctr (s : State) (w : Width) (a : Nat) (v : Word) : (storeDevice s w a v).ctr = s.ctr := rfl
@[simp] theorem storeDevice_dbg (s : State) (w : Width) (a : Nat) (v : Word) : (storeDevice s w a v).dbg = s.dbg := rfl
@[simp] theorem storeDevice_clic (s : State) (w : Width) (a : Nat) (v : Word) : (storeDevice s w a v).clic = s.clic := rfl
@[simp] theorem storeDevice_pins (s : State) (w : Width) (a : Nat) (v : Word) : (storeDevice s w a v).pins = s.pins := rfl
@[simp] theorem storeDevice_mem (s : State) (w : Width) (a : Nat) (v : Word) : (storeDevice s w a v).mem = s.mem := rfl
@[simp] theorem storeDevice_sleeping (s : State) (w : Width) (a : Nat) (v : Word) : (storeDevice s w a v).sleeping = s.sleeping := rfl
@[simp] theorem storeDevice_trapStack (s : State) (w : Width) (a : Nat) (v : Word) : (storeDevice s w a v).trapStack = s.trapStack := rfl
@[simp] theorem storeDevice_cop (s : State) (w : Width) (a : Nat) (v : Word) : (storeDevice s w a v).cop = s.cop := rfl
@[simp] theorem storeDevice_inputs (s : State) (w : Width) (a : Nat) (v : Word) : (storeDevice s w a v).inputs = s.inputs := rfl
@[simp] theorem storeDevice_tick (s : State) (w : Width) (a : Nat) (v : Word) : (storeDevice s w a v).tick = s.tick := rfl

@[simp] theorem storeDevice_stale (s : State) (w : Width) (a : Nat) (v : Word) :
    (storeDevice s w a v).stale = insertAddrs s.stale a w.bytes := rfl

@[simp] theorem storeDevice_devices (s : State) (w : Width) (a : Nat) (v : Word) :
    (storeDevice s w a v).devices = { kind := .store, addr := a, bytes := w.bytes, data := lowBytes w v } :: s.devices := rfl

@[simp] theorem x_storeDevice (s : State) (w : Width) (a : Nat) (v : Word) (r : Reg) :
    (storeDevice s w a v).x r = s.x r := rfl

/-! ## What a reset by the platform keeps (70_reset_and_hazards.md R482) -/

@[simp] theorem resetCore_cfg (s : State) : (resetCore s).cfg = s.cfg := rfl
@[simp] theorem resetCore_mem (s : State) : (resetCore s).mem = s.mem := rfl
@[simp] theorem resetCore_cop (s : State) : (resetCore s).cop = s.cop := rfl
@[simp] theorem resetCore_devices (s : State) : (resetCore s).devices = s.devices := rfl
@[simp] theorem resetCore_inputs (s : State) : (resetCore s).inputs = s.inputs := rfl
@[simp] theorem resetCore_tick (s : State) : (resetCore s).tick = s.tick := rfl

/-! ## CSRs, the debug unit, counters and sources -/

@[simp] theorem withCsr_cfg (s : State) (c : Csrs) : (withCsr s c).cfg = s.cfg := rfl
@[simp] theorem withCsr_regs (s : State) (c : Csrs) : (withCsr s c).regs = s.regs := rfl
@[simp] theorem withCsr_pc (s : State) (c : Csrs) : (withCsr s c).pc = s.pc := rfl
@[simp] theorem withCsr_ctr (s : State) (c : Csrs) : (withCsr s c).ctr = s.ctr := rfl
@[simp] theorem withCsr_dbg (s : State) (c : Csrs) : (withCsr s c).dbg = s.dbg := rfl
@[simp] theorem withCsr_clic (s : State) (c : Csrs) : (withCsr s c).clic = s.clic := rfl
@[simp] theorem withCsr_pins (s : State) (c : Csrs) : (withCsr s c).pins = s.pins := rfl
@[simp] theorem withCsr_mem (s : State) (c : Csrs) : (withCsr s c).mem = s.mem := rfl
@[simp] theorem withCsr_stale (s : State) (c : Csrs) : (withCsr s c).stale = s.stale := rfl
@[simp] theorem withCsr_sleeping (s : State) (c : Csrs) : (withCsr s c).sleeping = s.sleeping := rfl
@[simp] theorem withCsr_trapStack (s : State) (c : Csrs) : (withCsr s c).trapStack = s.trapStack := rfl
@[simp] theorem withCsr_cop (s : State) (c : Csrs) : (withCsr s c).cop = s.cop := rfl
@[simp] theorem withCsr_devices (s : State) (c : Csrs) : (withCsr s c).devices = s.devices := rfl
@[simp] theorem withCsr_inputs (s : State) (c : Csrs) : (withCsr s c).inputs = s.inputs := rfl
@[simp] theorem withCsr_tick (s : State) (c : Csrs) : (withCsr s c).tick = s.tick := rfl

@[simp] theorem withCsr_csr (s : State) (c : Csrs) : (withCsr s c).csr = c := rfl

@[simp] theorem withDbg_cfg (s : State) (d : DebugUnit) : (withDbg s d).cfg = s.cfg := rfl
@[simp] theorem withDbg_regs (s : State) (d : DebugUnit) : (withDbg s d).regs = s.regs := rfl
@[simp] theorem withDbg_pc (s : State) (d : DebugUnit) : (withDbg s d).pc = s.pc := rfl
@[simp] theorem withDbg_csr (s : State) (d : DebugUnit) : (withDbg s d).csr = s.csr := rfl
@[simp] theorem withDbg_ctr (s : State) (d : DebugUnit) : (withDbg s d).ctr = s.ctr := rfl
@[simp] theorem withDbg_clic (s : State) (d : DebugUnit) : (withDbg s d).clic = s.clic := rfl
@[simp] theorem withDbg_pins (s : State) (d : DebugUnit) : (withDbg s d).pins = s.pins := rfl
@[simp] theorem withDbg_mem (s : State) (d : DebugUnit) : (withDbg s d).mem = s.mem := rfl
@[simp] theorem withDbg_stale (s : State) (d : DebugUnit) : (withDbg s d).stale = s.stale := rfl
@[simp] theorem withDbg_sleeping (s : State) (d : DebugUnit) : (withDbg s d).sleeping = s.sleeping := rfl
@[simp] theorem withDbg_trapStack (s : State) (d : DebugUnit) : (withDbg s d).trapStack = s.trapStack := rfl
@[simp] theorem withDbg_cop (s : State) (d : DebugUnit) : (withDbg s d).cop = s.cop := rfl
@[simp] theorem withDbg_devices (s : State) (d : DebugUnit) : (withDbg s d).devices = s.devices := rfl
@[simp] theorem withDbg_inputs (s : State) (d : DebugUnit) : (withDbg s d).inputs = s.inputs := rfl
@[simp] theorem withDbg_tick (s : State) (d : DebugUnit) : (withDbg s d).tick = s.tick := rfl

@[simp] theorem withDbg_dbg (s : State) (d : DebugUnit) : (withDbg s d).dbg = d := rfl

@[simp] theorem withCtr_cfg (s : State) (c : Counters) : (withCtr s c).cfg = s.cfg := rfl
@[simp] theorem withCtr_regs (s : State) (c : Counters) : (withCtr s c).regs = s.regs := rfl
@[simp] theorem withCtr_pc (s : State) (c : Counters) : (withCtr s c).pc = s.pc := rfl
@[simp] theorem withCtr_csr (s : State) (c : Counters) : (withCtr s c).csr = s.csr := rfl
@[simp] theorem withCtr_dbg (s : State) (c : Counters) : (withCtr s c).dbg = s.dbg := rfl
@[simp] theorem withCtr_clic (s : State) (c : Counters) : (withCtr s c).clic = s.clic := rfl
@[simp] theorem withCtr_pins (s : State) (c : Counters) : (withCtr s c).pins = s.pins := rfl
@[simp] theorem withCtr_mem (s : State) (c : Counters) : (withCtr s c).mem = s.mem := rfl
@[simp] theorem withCtr_stale (s : State) (c : Counters) : (withCtr s c).stale = s.stale := rfl
@[simp] theorem withCtr_sleeping (s : State) (c : Counters) : (withCtr s c).sleeping = s.sleeping := rfl
@[simp] theorem withCtr_trapStack (s : State) (c : Counters) : (withCtr s c).trapStack = s.trapStack := rfl
@[simp] theorem withCtr_cop (s : State) (c : Counters) : (withCtr s c).cop = s.cop := rfl
@[simp] theorem withCtr_devices (s : State) (c : Counters) : (withCtr s c).devices = s.devices := rfl
@[simp] theorem withCtr_inputs (s : State) (c : Counters) : (withCtr s c).inputs = s.inputs := rfl
@[simp] theorem withCtr_tick (s : State) (c : Counters) : (withCtr s c).tick = s.tick := rfl

@[simp] theorem withCtr_ctr (s : State) (c : Counters) : (withCtr s c).ctr = c := rfl

@[simp] theorem setTrigger_cfg (s : State) (t : Trigger) : (setTrigger s t).cfg = s.cfg := rfl
@[simp] theorem setTrigger_regs (s : State) (t : Trigger) : (setTrigger s t).regs = s.regs := rfl
@[simp] theorem setTrigger_pc (s : State) (t : Trigger) : (setTrigger s t).pc = s.pc := rfl
@[simp] theorem setTrigger_csr (s : State) (t : Trigger) : (setTrigger s t).csr = s.csr := rfl
@[simp] theorem setTrigger_ctr (s : State) (t : Trigger) : (setTrigger s t).ctr = s.ctr := rfl
@[simp] theorem setTrigger_clic (s : State) (t : Trigger) : (setTrigger s t).clic = s.clic := rfl
@[simp] theorem setTrigger_pins (s : State) (t : Trigger) : (setTrigger s t).pins = s.pins := rfl
@[simp] theorem setTrigger_mem (s : State) (t : Trigger) : (setTrigger s t).mem = s.mem := rfl
@[simp] theorem setTrigger_stale (s : State) (t : Trigger) : (setTrigger s t).stale = s.stale := rfl
@[simp] theorem setTrigger_sleeping (s : State) (t : Trigger) : (setTrigger s t).sleeping = s.sleeping := rfl
@[simp] theorem setTrigger_trapStack (s : State) (t : Trigger) : (setTrigger s t).trapStack = s.trapStack := rfl
@[simp] theorem setTrigger_cop (s : State) (t : Trigger) : (setTrigger s t).cop = s.cop := rfl
@[simp] theorem setTrigger_devices (s : State) (t : Trigger) : (setTrigger s t).devices = s.devices := rfl
@[simp] theorem setTrigger_inputs (s : State) (t : Trigger) : (setTrigger s t).inputs = s.inputs := rfl
@[simp] theorem setTrigger_tick (s : State) (t : Trigger) : (setTrigger s t).tick = s.tick := rfl

@[simp] theorem setSource_cfg (s : State) (id : Nat) (c : ClicSource) : (setSource s id c).cfg = s.cfg := rfl
@[simp] theorem setSource_regs (s : State) (id : Nat) (c : ClicSource) : (setSource s id c).regs = s.regs := rfl
@[simp] theorem setSource_pc (s : State) (id : Nat) (c : ClicSource) : (setSource s id c).pc = s.pc := rfl
@[simp] theorem setSource_csr (s : State) (id : Nat) (c : ClicSource) : (setSource s id c).csr = s.csr := rfl
@[simp] theorem setSource_ctr (s : State) (id : Nat) (c : ClicSource) : (setSource s id c).ctr = s.ctr := rfl
@[simp] theorem setSource_dbg (s : State) (id : Nat) (c : ClicSource) : (setSource s id c).dbg = s.dbg := rfl
@[simp] theorem setSource_pins (s : State) (id : Nat) (c : ClicSource) : (setSource s id c).pins = s.pins := rfl
@[simp] theorem setSource_mem (s : State) (id : Nat) (c : ClicSource) : (setSource s id c).mem = s.mem := rfl
@[simp] theorem setSource_stale (s : State) (id : Nat) (c : ClicSource) : (setSource s id c).stale = s.stale := rfl
@[simp] theorem setSource_sleeping (s : State) (id : Nat) (c : ClicSource) : (setSource s id c).sleeping = s.sleeping := rfl
@[simp] theorem setSource_trapStack (s : State) (id : Nat) (c : ClicSource) : (setSource s id c).trapStack = s.trapStack := rfl
@[simp] theorem setSource_cop (s : State) (id : Nat) (c : ClicSource) : (setSource s id c).cop = s.cop := rfl
@[simp] theorem setSource_devices (s : State) (id : Nat) (c : ClicSource) : (setSource s id c).devices = s.devices := rfl
@[simp] theorem setSource_inputs (s : State) (id : Nat) (c : ClicSource) : (setSource s id c).inputs = s.inputs := rfl
@[simp] theorem setSource_tick (s : State) (id : Nat) (c : ClicSource) : (setSource s id c).tick = s.tick := rfl

@[simp] theorem setMinhv_cfg (s : State) (b : Bool) : (setMinhv s b).cfg = s.cfg := rfl
@[simp] theorem setMinhv_regs (s : State) (b : Bool) : (setMinhv s b).regs = s.regs := rfl
@[simp] theorem setMinhv_pc (s : State) (b : Bool) : (setMinhv s b).pc = s.pc := rfl
@[simp] theorem setMinhv_ctr (s : State) (b : Bool) : (setMinhv s b).ctr = s.ctr := rfl
@[simp] theorem setMinhv_dbg (s : State) (b : Bool) : (setMinhv s b).dbg = s.dbg := rfl
@[simp] theorem setMinhv_clic (s : State) (b : Bool) : (setMinhv s b).clic = s.clic := rfl
@[simp] theorem setMinhv_pins (s : State) (b : Bool) : (setMinhv s b).pins = s.pins := rfl
@[simp] theorem setMinhv_mem (s : State) (b : Bool) : (setMinhv s b).mem = s.mem := rfl
@[simp] theorem setMinhv_stale (s : State) (b : Bool) : (setMinhv s b).stale = s.stale := rfl
@[simp] theorem setMinhv_sleeping (s : State) (b : Bool) : (setMinhv s b).sleeping = s.sleeping := rfl
@[simp] theorem setMinhv_trapStack (s : State) (b : Bool) : (setMinhv s b).trapStack = s.trapStack := rfl
@[simp] theorem setMinhv_cop (s : State) (b : Bool) : (setMinhv s b).cop = s.cop := rfl
@[simp] theorem setMinhv_devices (s : State) (b : Bool) : (setMinhv s b).devices = s.devices := rfl
@[simp] theorem setMinhv_inputs (s : State) (b : Bool) : (setMinhv s b).inputs = s.inputs := rfl
@[simp] theorem setMinhv_tick (s : State) (b : Bool) : (setMinhv s b).tick = s.tick := rfl

@[simp] theorem wake_cfg (s : State) : (wake s).cfg = s.cfg := rfl
@[simp] theorem wake_regs (s : State) : (wake s).regs = s.regs := rfl
@[simp] theorem wake_pc (s : State) : (wake s).pc = s.pc := rfl
@[simp] theorem wake_csr (s : State) : (wake s).csr = s.csr := rfl
@[simp] theorem wake_ctr (s : State) : (wake s).ctr = s.ctr := rfl
@[simp] theorem wake_dbg (s : State) : (wake s).dbg = s.dbg := rfl
@[simp] theorem wake_clic (s : State) : (wake s).clic = s.clic := rfl
@[simp] theorem wake_pins (s : State) : (wake s).pins = s.pins := rfl
@[simp] theorem wake_mem (s : State) : (wake s).mem = s.mem := rfl
@[simp] theorem wake_stale (s : State) : (wake s).stale = s.stale := rfl
@[simp] theorem wake_trapStack (s : State) : (wake s).trapStack = s.trapStack := rfl
@[simp] theorem wake_cop (s : State) : (wake s).cop = s.cop := rfl
@[simp] theorem wake_devices (s : State) : (wake s).devices = s.devices := rfl
@[simp] theorem wake_inputs (s : State) : (wake s).inputs = s.inputs := rfl
@[simp] theorem wake_tick (s : State) : (wake s).tick = s.tick := rfl

@[simp] theorem saveMte_cfg (s : State) : (s.saveMte).cfg = s.cfg := by unfold State.saveMte; split <;> rfl
@[simp] theorem saveMte_regs (s : State) : (s.saveMte).regs = s.regs := by unfold State.saveMte; split <;> rfl
@[simp] theorem saveMte_pc (s : State) : (s.saveMte).pc = s.pc := by unfold State.saveMte; split <;> rfl
@[simp] theorem saveMte_csr (s : State) : (s.saveMte).csr = s.csr := by unfold State.saveMte; split <;> rfl
@[simp] theorem saveMte_ctr (s : State) : (s.saveMte).ctr = s.ctr := by unfold State.saveMte; split <;> rfl
@[simp] theorem saveMte_clic (s : State) : (s.saveMte).clic = s.clic := by unfold State.saveMte; split <;> rfl
@[simp] theorem saveMte_pins (s : State) : (s.saveMte).pins = s.pins := by unfold State.saveMte; split <;> rfl
@[simp] theorem saveMte_mem (s : State) : (s.saveMte).mem = s.mem := by unfold State.saveMte; split <;> rfl
@[simp] theorem saveMte_stale (s : State) : (s.saveMte).stale = s.stale := by unfold State.saveMte; split <;> rfl
@[simp] theorem saveMte_sleeping (s : State) : (s.saveMte).sleeping = s.sleeping := by unfold State.saveMte; split <;> rfl
@[simp] theorem saveMte_trapStack (s : State) : (s.saveMte).trapStack = s.trapStack := by unfold State.saveMte; split <;> rfl
@[simp] theorem saveMte_cop (s : State) : (s.saveMte).cop = s.cop := by unfold State.saveMte; split <;> rfl
@[simp] theorem saveMte_devices (s : State) : (s.saveMte).devices = s.devices := by unfold State.saveMte; split <;> rfl
@[simp] theorem saveMte_inputs (s : State) : (s.saveMte).inputs = s.inputs := by unfold State.saveMte; split <;> rfl
@[simp] theorem saveMte_tick (s : State) : (s.saveMte).tick = s.tick := by unfold State.saveMte; split <;> rfl

/-! ## Traps and debug mode (60_exceptions.md R410, R414, R416, R466, R467) -/

@[simp] theorem enterException_cfg (s : State) (c : Nat) : (enterException s c).cfg = s.cfg := by simp [enterException]
@[simp] theorem enterException_regs (s : State) (c : Nat) : (enterException s c).regs = s.regs := by simp [enterException]
@[simp] theorem enterException_ctr (s : State) (c : Nat) : (enterException s c).ctr = s.ctr := by simp [enterException]
@[simp] theorem enterException_clic (s : State) (c : Nat) : (enterException s c).clic = s.clic := by simp [enterException]
@[simp] theorem enterException_pins (s : State) (c : Nat) : (enterException s c).pins = s.pins := by simp [enterException]
@[simp] theorem enterException_mem (s : State) (c : Nat) : (enterException s c).mem = s.mem := by simp [enterException]
@[simp] theorem enterException_stale (s : State) (c : Nat) : (enterException s c).stale = s.stale := by simp [enterException]
@[simp] theorem enterException_sleeping (s : State) (c : Nat) : (enterException s c).sleeping = s.sleeping := by simp [enterException]
@[simp] theorem enterException_cop (s : State) (c : Nat) : (enterException s c).cop = s.cop := by simp [enterException]
@[simp] theorem enterException_devices (s : State) (c : Nat) : (enterException s c).devices = s.devices := by simp [enterException]
@[simp] theorem enterException_inputs (s : State) (c : Nat) : (enterException s c).inputs = s.inputs := by simp [enterException]
@[simp] theorem enterException_tick (s : State) (c : Nat) : (enterException s c).tick = s.tick := by simp [enterException]

@[simp] theorem enterLockup_cfg (s : State) : (enterLockup s).cfg = s.cfg := rfl
@[simp] theorem enterLockup_regs (s : State) : (enterLockup s).regs = s.regs := rfl
@[simp] theorem enterLockup_pc (s : State) : (enterLockup s).pc = s.pc := rfl
@[simp] theorem enterLockup_ctr (s : State) : (enterLockup s).ctr = s.ctr := rfl
@[simp] theorem enterLockup_dbg (s : State) : (enterLockup s).dbg = s.dbg := rfl
@[simp] theorem enterLockup_clic (s : State) : (enterLockup s).clic = s.clic := rfl
@[simp] theorem enterLockup_pins (s : State) : (enterLockup s).pins = s.pins := rfl
@[simp] theorem enterLockup_mem (s : State) : (enterLockup s).mem = s.mem := rfl
@[simp] theorem enterLockup_stale (s : State) : (enterLockup s).stale = s.stale := rfl
@[simp] theorem enterLockup_sleeping (s : State) : (enterLockup s).sleeping = s.sleeping := rfl
@[simp] theorem enterLockup_trapStack (s : State) : (enterLockup s).trapStack = s.trapStack := rfl
@[simp] theorem enterLockup_cop (s : State) : (enterLockup s).cop = s.cop := rfl
@[simp] theorem enterLockup_devices (s : State) : (enterLockup s).devices = s.devices := rfl
@[simp] theorem enterLockup_inputs (s : State) : (enterLockup s).inputs = s.inputs := rfl
@[simp] theorem enterLockup_tick (s : State) : (enterLockup s).tick = s.tick := rfl

@[simp] theorem raise_cfg (s : State) (c : Nat) : (raise s c).cfg = s.cfg := by unfold raise; split <;> simp
@[simp] theorem raise_regs (s : State) (c : Nat) : (raise s c).regs = s.regs := by unfold raise; split <;> simp
@[simp] theorem raise_ctr (s : State) (c : Nat) : (raise s c).ctr = s.ctr := by unfold raise; split <;> simp
@[simp] theorem raise_clic (s : State) (c : Nat) : (raise s c).clic = s.clic := by unfold raise; split <;> simp
@[simp] theorem raise_pins (s : State) (c : Nat) : (raise s c).pins = s.pins := by unfold raise; split <;> simp
@[simp] theorem raise_mem (s : State) (c : Nat) : (raise s c).mem = s.mem := by unfold raise; split <;> simp
@[simp] theorem raise_stale (s : State) (c : Nat) : (raise s c).stale = s.stale := by unfold raise; split <;> simp
@[simp] theorem raise_sleeping (s : State) (c : Nat) : (raise s c).sleeping = s.sleeping := by unfold raise; split <;> simp
@[simp] theorem raise_cop (s : State) (c : Nat) : (raise s c).cop = s.cop := by unfold raise; split <;> simp
@[simp] theorem raise_devices (s : State) (c : Nat) : (raise s c).devices = s.devices := by unfold raise; split <;> simp
@[simp] theorem raise_inputs (s : State) (c : Nat) : (raise s c).inputs = s.inputs := by unfold raise; split <;> simp
@[simp] theorem raise_tick (s : State) (c : Nat) : (raise s c).tick = s.tick := by unfold raise; split <;> simp

@[simp] theorem returnFromTrap_cfg (s : State) : (returnFromTrap s).cfg = s.cfg := rfl
@[simp] theorem returnFromTrap_regs (s : State) : (returnFromTrap s).regs = s.regs := rfl
@[simp] theorem returnFromTrap_pc (s : State) : (returnFromTrap s).pc = s.pc := rfl
@[simp] theorem returnFromTrap_ctr (s : State) : (returnFromTrap s).ctr = s.ctr := rfl
@[simp] theorem returnFromTrap_clic (s : State) : (returnFromTrap s).clic = s.clic := rfl
@[simp] theorem returnFromTrap_pins (s : State) : (returnFromTrap s).pins = s.pins := rfl
@[simp] theorem returnFromTrap_mem (s : State) : (returnFromTrap s).mem = s.mem := rfl
@[simp] theorem returnFromTrap_stale (s : State) : (returnFromTrap s).stale = s.stale := rfl
@[simp] theorem returnFromTrap_sleeping (s : State) : (returnFromTrap s).sleeping = s.sleeping := rfl
@[simp] theorem returnFromTrap_cop (s : State) : (returnFromTrap s).cop = s.cop := rfl
@[simp] theorem returnFromTrap_devices (s : State) : (returnFromTrap s).devices = s.devices := rfl
@[simp] theorem returnFromTrap_inputs (s : State) : (returnFromTrap s).inputs = s.inputs := rfl
@[simp] theorem returnFromTrap_tick (s : State) : (returnFromTrap s).tick = s.tick := rfl

@[simp] theorem enterDebug_cfg (s : State) (c : BitVec 3) (h : BitVec 4) : (enterDebug s c h).cfg = s.cfg := rfl
@[simp] theorem enterDebug_regs (s : State) (c : BitVec 3) (h : BitVec 4) : (enterDebug s c h).regs = s.regs := rfl
@[simp] theorem enterDebug_pc (s : State) (c : BitVec 3) (h : BitVec 4) : (enterDebug s c h).pc = s.pc := rfl
@[simp] theorem enterDebug_csr (s : State) (c : BitVec 3) (h : BitVec 4) : (enterDebug s c h).csr = s.csr := rfl
@[simp] theorem enterDebug_ctr (s : State) (c : BitVec 3) (h : BitVec 4) : (enterDebug s c h).ctr = s.ctr := rfl
@[simp] theorem enterDebug_clic (s : State) (c : BitVec 3) (h : BitVec 4) : (enterDebug s c h).clic = s.clic := rfl
@[simp] theorem enterDebug_pins (s : State) (c : BitVec 3) (h : BitVec 4) : (enterDebug s c h).pins = s.pins := rfl
@[simp] theorem enterDebug_mem (s : State) (c : BitVec 3) (h : BitVec 4) : (enterDebug s c h).mem = s.mem := rfl
@[simp] theorem enterDebug_stale (s : State) (c : BitVec 3) (h : BitVec 4) : (enterDebug s c h).stale = s.stale := rfl
@[simp] theorem enterDebug_trapStack (s : State) (c : BitVec 3) (h : BitVec 4) : (enterDebug s c h).trapStack = s.trapStack := rfl
@[simp] theorem enterDebug_cop (s : State) (c : BitVec 3) (h : BitVec 4) : (enterDebug s c h).cop = s.cop := rfl
@[simp] theorem enterDebug_devices (s : State) (c : BitVec 3) (h : BitVec 4) : (enterDebug s c h).devices = s.devices := rfl
@[simp] theorem enterDebug_inputs (s : State) (c : BitVec 3) (h : BitVec 4) : (enterDebug s c h).inputs = s.inputs := rfl
@[simp] theorem enterDebug_tick (s : State) (c : BitVec 3) (h : BitVec 4) : (enterDebug s c h).tick = s.tick := rfl

@[simp] theorem leaveDebug_cfg (s : State) : (leaveDebug s).cfg = s.cfg := rfl
@[simp] theorem leaveDebug_regs (s : State) : (leaveDebug s).regs = s.regs := rfl
@[simp] theorem leaveDebug_ctr (s : State) : (leaveDebug s).ctr = s.ctr := rfl
@[simp] theorem leaveDebug_clic (s : State) : (leaveDebug s).clic = s.clic := rfl
@[simp] theorem leaveDebug_pins (s : State) : (leaveDebug s).pins = s.pins := rfl
@[simp] theorem leaveDebug_mem (s : State) : (leaveDebug s).mem = s.mem := rfl
@[simp] theorem leaveDebug_stale (s : State) : (leaveDebug s).stale = s.stale := rfl
@[simp] theorem leaveDebug_sleeping (s : State) : (leaveDebug s).sleeping = s.sleeping := rfl
@[simp] theorem leaveDebug_cop (s : State) : (leaveDebug s).cop = s.cop := rfl
@[simp] theorem leaveDebug_devices (s : State) : (leaveDebug s).devices = s.devices := rfl
@[simp] theorem leaveDebug_inputs (s : State) : (leaveDebug s).inputs = s.inputs := rfl
@[simp] theorem leaveDebug_tick (s : State) : (leaveDebug s).tick = s.tick := rfl

@[simp] theorem interruptEntry_cfg (s : State) (id : Nat) : (interruptEntry s id).cfg = s.cfg := by simp [interruptEntry]
@[simp] theorem interruptEntry_regs (s : State) (id : Nat) : (interruptEntry s id).regs = s.regs := by simp [interruptEntry]
@[simp] theorem interruptEntry_pc (s : State) (id : Nat) : (interruptEntry s id).pc = s.pc := by simp [interruptEntry]
@[simp] theorem interruptEntry_ctr (s : State) (id : Nat) : (interruptEntry s id).ctr = s.ctr := by simp [interruptEntry]
@[simp] theorem interruptEntry_clic (s : State) (id : Nat) : (interruptEntry s id).clic = s.clic := by simp [interruptEntry]
@[simp] theorem interruptEntry_pins (s : State) (id : Nat) : (interruptEntry s id).pins = s.pins := by simp [interruptEntry]
@[simp] theorem interruptEntry_mem (s : State) (id : Nat) : (interruptEntry s id).mem = s.mem := by simp [interruptEntry]
@[simp] theorem interruptEntry_stale (s : State) (id : Nat) : (interruptEntry s id).stale = s.stale := by simp [interruptEntry]
@[simp] theorem interruptEntry_cop (s : State) (id : Nat) : (interruptEntry s id).cop = s.cop := by simp [interruptEntry]
@[simp] theorem interruptEntry_devices (s : State) (id : Nat) : (interruptEntry s id).devices = s.devices := by simp [interruptEntry]
@[simp] theorem interruptEntry_inputs (s : State) (id : Nat) : (interruptEntry s id).inputs = s.inputs := by simp [interruptEntry]
@[simp] theorem interruptEntry_tick (s : State) (id : Nat) : (interruptEntry s id).tick = s.tick := by simp [interruptEntry]

@[simp] theorem sample_cfg (s : State) (i : StepInput) : (sample s i).cfg = s.cfg := rfl
@[simp] theorem sample_regs (s : State) (i : StepInput) : (sample s i).regs = s.regs := rfl
@[simp] theorem sample_pc (s : State) (i : StepInput) : (sample s i).pc = s.pc := rfl
@[simp] theorem sample_mem (s : State) (i : StepInput) : (sample s i).mem = s.mem := rfl
@[simp] theorem sample_stale (s : State) (i : StepInput) : (sample s i).stale = s.stale := rfl
@[simp] theorem sample_sleeping (s : State) (i : StepInput) : (sample s i).sleeping = s.sleeping := rfl
@[simp] theorem sample_trapStack (s : State) (i : StepInput) : (sample s i).trapStack = s.trapStack := rfl
@[simp] theorem sample_cop (s : State) (i : StepInput) : (sample s i).cop = s.cop := rfl
@[simp] theorem sample_devices (s : State) (i : StepInput) : (sample s i).devices = s.devices := rfl
@[simp] theorem sample_tick (s : State) (i : StepInput) : (sample s i).tick = s.tick + 1 := rfl
@[simp] theorem sample_mie (s : State) (i : StepInput) : (sample s i).csr.mie = s.csr.mie := rfl
@[simp] theorem sample_mpie (s : State) (i : StepInput) : (sample s i).csr.mpie = s.csr.mpie := rfl
@[simp] theorem sample_mepc (s : State) (i : StepInput) : (sample s i).csr.mepc = s.csr.mepc := rfl
@[simp] theorem sample_mtvecBase (s : State) (i : StepInput) : (sample s i).csr.mtvecBase = s.csr.mtvecBase := rfl
@[simp] theorem sample_mtvtBase (s : State) (i : StepInput) : (sample s i).csr.mtvtBase = s.csr.mtvtBase := rfl
@[simp] theorem sample_causeInt (s : State) (i : StepInput) : (sample s i).csr.causeInt = s.csr.causeInt := rfl
@[simp] theorem sample_causeCode (s : State) (i : StepInput) : (sample s i).csr.causeCode = s.csr.causeCode := rfl
@[simp] theorem sample_minhv (s : State) (i : StepInput) : (sample s i).csr.minhv = s.csr.minhv := rfl
@[simp] theorem sample_wfe (s : State) (i : StepInput) : (sample s i).csr.wfe = s.csr.wfe := rfl
@[simp] theorem sample_exptVld (s : State) (i : StepInput) : (sample s i).csr.exptVld = s.csr.exptVld := rfl
@[simp] theorem sample_lockup (s : State) (i : StepInput) : (sample s i).csr.lockup = s.csr.lockup := rfl
@[simp] theorem sample_lpmd (s : State) (i : StepInput) : (sample s i).csr.lpmd = s.csr.lpmd := rfl
@[simp] theorem sample_copEn (s : State) (i : StepInput) : (sample s i).csr.copEn = s.csr.copEn := rfl
@[simp] theorem sample_debugMode (s : State) (i : StepInput) : (sample s i).dbg.debugMode = s.dbg.debugMode := rfl
@[simp] theorem sample_step (s : State) (i : StepInput) : (sample s i).dbg.step = s.dbg.step := rfl
@[simp] theorem sample_stepie (s : State) (i : StepInput) : (sample s i).dbg.stepie = s.dbg.stepie := rfl
@[simp] theorem sample_ebreakm (s : State) (i : StepInput) : (sample s i).dbg.ebreakm = s.dbg.ebreakm := rfl
@[simp] theorem sample_stopcount (s : State) (i : StepInput) : (sample s i).dbg.stopcount = s.dbg.stopcount := rfl
@[simp] theorem sample_mte (s : State) (i : StepInput) : (sample s i).dbg.mte = s.dbg.mte := rfl
@[simp] theorem sample_mpte (s : State) (i : StepInput) : (sample s i).dbg.mpte = s.dbg.mpte := rfl
@[simp] theorem sample_dpc (s : State) (i : StepInput) : (sample s i).dbg.dpc = s.dbg.dpc := rfl
@[simp] theorem sample_tselect (s : State) (i : StepInput) : (sample s i).dbg.tselect = s.dbg.tselect := rfl
@[simp] theorem sample_triggers (s : State) (i : StepInput) : (sample s i).dbg.triggers = s.dbg.triggers := rfl
@[simp] theorem sample_mcy (s : State) (i : StepInput) : (sample s i).ctr.mcy = s.ctr.mcy := by simp only [sample]; split <;> rfl
@[simp] theorem sample_mir (s : State) (i : StepInput) : (sample s i).ctr.mir = s.ctr.mir := by simp only [sample]; split <;> rfl
@[simp] theorem sample_minstret (s : State) (i : StepInput) : (sample s i).ctr.minstret = s.ctr.minstret := by simp only [sample]; split <;> rfl
@[simp] theorem sample_hasDebug (s : State) (i : StepInput) : (sample s i).hasDebug = s.hasDebug := rfl

@[simp] theorem x_sample (s : State) (i : StepInput) (r : Reg) : (sample s i).x r = s.x r := rfl

end Sys2Proof.Machine
end

