-- ==== Sys2Proof/Laws/Ops.lean ====
section
/-!
SUPPORT. One lemma for each shared operation, which says once what it can do.
-/

namespace Sys2Proof.Machine

/-! ## The pc (10_state.md R25 to R28) -/

/-- A pc value below 2^21 is held as it is. -/
theorem normPc_low {v : Word} (h : LowPc v) : normPc v = v := by
  have h : v.toNat < mainSize := h
  simp [normPc, h]

/-- What the pc holds is v, or v with bits [31:21] cleared. -/
theorem normPc_cases (v : Word) : normPc v = v ∨ normPc v = v &&& 0x1FFFFF := by
  unfold normPc
  split
  · exact .inl rfl
  · split
    · exact .inl rfl
    · exact .inr rfl

/-- Holding a held pc value changes nothing. -/
theorem normPc_idem (v : Word) : normPc (normPc v) = normPc v := by
  unfold normPc
  by_cases h : v.toNat < mainSize
  · simp [h]
  · cases hp : Config.pcHighPolicy
    · simp [h]
    · have : (v &&& 0x1FFFFF).toNat < mainSize := by
        have : (v &&& 0x1FFFFF).toNat ≤ (0x1FFFFF : Word).toNat := by
          rw [BitVec.toNat_and]; exact Nat.and_le_right
        have h2 : (0x1FFFFF : Word).toNat < mainSize := by decide
        omega
      simp only [h, if_false, this, if_true]

/-- Bits [20:0] are held as they are. -/
theorem normPc_getLsbD (v : Word) {i : Nat} (h : i < 21) : (normPc v).getLsbD i = v.getLsbD i := by
  rcases normPc_cases v with e | e
  · rw [e]
  · rw [e, BitVec.getLsbD_and]
    have this : ∀ j : Fin 21, (0x1FFFFF#32).getLsbD j.val = true := by decide
    have this : (0x1FFFFF#32).getLsbD i = true := this ⟨i, h⟩
    exact (congrArg _ this).trans (Bool.and_true _)

/-- An address with bit 0 cleared is even. -/
theorem clearBit0_even (v : Word) : (clearBit0 v).getLsbD 0 = false := by
  simp [clearBit0]

/-- Clearing bit 0 of an even address changes nothing. -/
theorem clearBit0_of_even {v : Word} (h : v.getLsbD 0 = false) : clearBit0 v = v := by
  have mask : ∀ j : Fin 32, j.val ≠ 0 → (0xFFFFFFFE#32).getLsbD j.val = true := by decide
  refine BitVec.eq_of_getLsbD_eq fun i hi => ?_
  rw [clearBit0, BitVec.getLsbD_and]
  by_cases h0 : i = 0
  · rw [h0, h]; rfl
  · exact (congrArg _ (mask ⟨i, hi⟩ h0)).trans (Bool.and_true _)

/-- The sum of two even addresses is even. -/
theorem add_even {v w : Word} (hv : v.getLsbD 0 = false) (hw : w.getLsbD 0 = false) : (v + w).getLsbD 0 = false := by
  have e : ∀ u : Word, u.getLsbD 0 = decide (u.toNat % 2 = 1) := fun u => by
    rw [BitVec.getLsbD, Nat.testBit_zero]
  rw [e] at hv hw ⊢
  simp only [decide_eq_false_iff_not, BitVec.toNat_add] at *
  omega

/-! ## Retiring -/

/-- The condition of the counting operation is the one the statements are written in (10_state.md R49). -/
theorem countsRetired_iff (s : State) : countsRetired s = true ↔ Counting s := by
  simp only [countsRetired, Counting, Bool.and_eq_true, Bool.not_eq_true', and_assoc]
  cases s.dbg.debugMode <;> simp

/-- minstret counts the instruction, wherever it goes on (10_state.md R49). -/
theorem countedOne_retireTo (s : State) (v : Word) : CountedOne s (s.retireTo v) := by
  rw [CountedOne, ← countsRetired_iff, retireTo_minstret]
  constructor <;> intro h <;> simp [h]

/-- Retirement counts once from every state that agrees on the build, the counters and the debug unit. -/
theorem countedOne_retireTo_of {s u : State} (hc : u.cfg = s.cfg) (hr : u.ctr = s.ctr) (hd : u.dbg = s.dbg) (v : Word) :
    CountedOne s (u.retireTo v) := by
  have := countedOne_retireTo u v
  simpa only [CountedOne, Counting, hc, hr, hd] using this

/-- A write of `rd` and a retirement change nothing else but the pc and minstret. -/
theorem registerFrame_setX_retireTo (s : State) (rd : Reg) (v target : Word) :
    RegisterFrame [rd] s ((s.setX rd v).retireTo target) := by
  refine ⟨fun r hr => ?_, fun a _ => by simp, by simp, ?_, ?_⟩
  · rw [x_retireTo, x_setX_other s v (by simpa using hr)]
  · simp [SameSystem]
  · exact countedOne_retireTo_of (by simp) (by simp) (by simp) target

/-- A retirement changes nothing but the pc and minstret. -/
theorem registerFrame_retireTo (s : State) (target : Word) : RegisterFrame [] s (s.retireTo target) := by
  refine ⟨fun r _ => by rw [x_retireTo], fun a _ => by simp, by simp, ?_, countedOne_retireTo s target⟩
  simp [SameSystem]

/-- What a register reads right after it was written. -/
theorem x_setX_written (s : State) (rd : Reg) (v : Word) : (s.setX rd v).x rd = written rd v := by
  by_cases h : rd = 0 <;> simp [x_setX, written, h]

/-- An instruction that answers by writeTo writes its result and changes nothing else. -/
theorem writes_of_writeTo {i : Instr} {s : State} {rd : Reg} {v len : Word} (h : exec i s = writeTo s len rd v) :
    Writes i s rd v len :=
  ⟨_, h, by rw [State.retire, x_retireTo, x_setX_written], by simp [State.retire],
    registerFrame_setX_retireTo s rd v _⟩

/-- An instruction that only retires goes to its target. -/
theorem goesTo_of_retireTo {i : Instr} {s : State} {target : Word} (h : exec i s = .next (s.retireTo target)) :
    GoesTo i s target :=
  ⟨_, h, by simp, registerFrame_retireTo s target⟩

/-- A conditional branch goes to its target or to the instruction after it (40_rv32e_base.md R252). -/
theorem goesTo_of_branchTo {i : Instr} {s : State} {len off : Word} {b : Bool} (h : exec i s = branchTo s len b off) :
    GoesTo i s (if b then s.pc + off else s.pc + len) := by
  cases b <;> exact goesTo_of_retireTo h

/-- An instruction that answers by jumpLink links pc + len and jumps. -/
theorem links_of_jumpLink {i : Instr} {s : State} {len target : Word} {rd : Reg}
    (h : exec i s = jumpLink s len rd target) : Links i s rd (s.pc + len) target :=
  ⟨_, h, by rw [x_retireTo, x_setX_written], by simp, registerFrame_setX_retireTo s rd _ _⟩

/-- An instruction of an option the build has. -/
theorem gated_present {b : Bool} (h : b = true) (s : State) (k : Out) : gated b s k = k := by simp [gated, h]

/-- An instruction of an option the build lacks is illegal (30_encoding.md R166). -/
theorem gated_absent {b : Bool} (h : b = false) (s : State) (k : Out) : gated b s k = .next (raise s 2) := by
  simp [gated, h, raiseIllegal]

/-! ## Exceptions (60_exceptions.md R410, R416) -/

/-- Outside a handler an exception is taken. -/
theorem raise_outside {s : State} (h : s.csr.exptVld = false) (code : Nat) : raise s code = enterException s code := by
  simp [raise, h]

/-- Inside a handler an exception locks the hart up. -/
theorem raise_inside {s : State} (h : s.csr.exptVld = true) (code : Nat) : raise s code = enterLockup s := by
  simp [raise, h]

/-! ## Data accesses (20_memory.md R101 to R111) -/

/-- A load that memory answers reads the bytes at its main-space address. -/
theorem loadMem_memory {s : State} {w : Width} {a : Word} (h : LoadsFromMemory s w a) :
    loadMem s w a = .ok (Memory.read s.mem w (mainAddr a), s) := by
  obtain ⟨h1, h2, h3, h4⟩ := h
  simp [loadMem, h1, h2, h3, h4]

/-- A load that a device answers reads its free value; the device has been asked once (R102, R116). -/
theorem loadMem_device {s : State} {w : Width} {a : Word} (h : LoadsFromDevice s w a) :
    loadMem s w a = .ok (deviceRead s w (mainAddr a)) := by
  obtain ⟨h1, h2, h3, h4⟩ := h
  simp [loadMem, h1, h2, h3, h4]

/-- What a load that completes does: it reads and changes nothing, but for a device, whose history grows by the access. -/
theorem loadMem_ok {s t : State} {w : Width} {a v : Word} (h : loadMem s w a = .ok (v, t)) :
    misaligned w a = false ∧
      ((LoadsFromMemory s w a ∧ v = Memory.read s.mem w (mainAddr a) ∧ t = s) ∨
        (LoadsFromDevice s w a ∧ (v, t) = deviceRead s w (mainAddr a)) ∨
        (inTcip a = true ∧ tcipRead s w a.toNat = some v ∧ t = s)) := by
  unfold loadMem at h
  split at h
  · cases h
  · rename_i h1
    have h1 : misaligned w a = false := by simpa using h1
    refine ⟨h1, ?_⟩
    split at h
    · rename_i h2
      split at h
      · rename_i u hu
        cases h
        exact .inr (.inr ⟨h2, hu, rfl⟩)
      · cases h
    · rename_i h2
      split at h
      · cases h
      · rename_i h3
        have h2 : inTcip a = false := by simpa using h2
        have h3 : inIbus s.cfg (mainAddr a) = false := by simpa using h3
        split at h
        · rename_i h4
          cases h
          exact .inl ⟨⟨h1, h2, h3, h4⟩, rfl, rfl⟩
        · rename_i h4
          injection h with h
          exact .inr (.inl ⟨⟨h1, h2, h3, h4⟩, h.symm⟩)
        · cases h

/-- A completed load leaves everything but the devices' history. -/
theorem loadMem_frame {s t : State} {w : Width} {a v : Word} (h : loadMem s w a = .ok (v, t)) :
    t = { s with devices := t.devices } := by
  rcases (loadMem_ok h).2 with ⟨_, _, rfl⟩ | ⟨_, e⟩ | ⟨_, _, rfl⟩
  · rfl
  · injection e with _ e
    subst e
    rfl
  · rfl

/-- A store that memory takes writes the bytes at its main-space address. -/
theorem storeMem_memory {s : State} {w : Width} {a v : Word} (h : StoresToMemory s w a) :
    storeMem s w a v = .ok (storeMain s w (mainAddr a) v) := by
  obtain ⟨h1, h2, h3, h4⟩ := h
  simp [storeMem, h1, h2, h3, h4]

/-- A store that a device takes is recorded in the devices' history (R102), and its location is marked (R122). -/
theorem storeMem_device {s : State} {w : Width} {a v : Word} (h : StoresToDevice s w a) :
    storeMem s w a v = .ok (storeDevice s w (mainAddr a) v) := by
  obtain ⟨h1, h2, h3, h4⟩ := h
  simp [storeMem, h1, h2, h3, h4]

/-- A misaligned load raises exception 4 (R106). -/
theorem loadMem_misaligned {s : State} {w : Width} {a : Word} (h : misaligned w a = true) : loadMem s w a = .exc 4 := by
  simp [loadMem, h]

/-- A misaligned store raises exception 6 (R106). -/
theorem storeMem_misaligned {s : State} {w : Width} {a v : Word} (h : misaligned w a = true) :
    storeMem s w a v = .exc 6 := by
  simp [storeMem, h]

/-- A store to a source replaces that source, or is refused. -/
theorem storeSource_ok {s t : State} {id : Nat} {ip ie attr : Option Byte} (h : storeSource s id ip ie attr = .ok t) :
    ∃ x, writeSource s id ip ie attr = .ok x ∧ t = setSource s id x := by
  unfold storeSource at h
  split at h
  · rename_i x hx
    cases h
    exact ⟨x, hx, rfl⟩
  · cases h

/-- A store to the TCIP window changes the CLINT and the CLIC only. -/
theorem tcipWrite_ok {s t : State} {w : Width} {a : Nat} {v : Word} (h : tcipWrite s w a v = .ok t) :
    ∃ c, t = { s with clic := c } := by
  have src : ∀ {id ip ie attr}, storeSource s id ip ie attr = .ok t → ∃ c, t = { s with clic := c } := fun h => by
    obtain ⟨x, _, rfl⟩ := storeSource_ok h
    exact ⟨_, rfl⟩
  unfold tcipWrite at h
  split at h
  · cases h
  · split at h
    · exact src h
    · exact src h
    · exact src h
    · cases h; exact ⟨s.clic, rfl⟩
    · cases h
  · split at h
    · cases h; exact ⟨_, rfl⟩
    · split at h
      · cases h; exact ⟨_, rfl⟩
      · split at h
        · cases h; exact ⟨_, rfl⟩
        · split at h
          · exact src h
          · cases h

/-- What a store that completes does: it writes main memory, a device, or the registers in the TCIP window. -/
theorem storeMem_ok {s t : State} {w : Width} {a v : Word} (h : storeMem s w a v = .ok t) :
    (StoresToMemory s w a ∧ t = storeMain s w (mainAddr a) v) ∨
      (StoresToDevice s w a ∧ t = storeDevice s w (mainAddr a) v) ∨
      (misaligned w a = false ∧ inTcip a = true ∧ tcipWrite s w a.toNat v = .ok t) := by
  unfold storeMem at h
  split at h
  · cases h
  · rename_i h1
    split at h
    · rename_i h2
      exact .inr (.inr ⟨by simpa using h1, h2, h⟩)
    · rename_i h2
      split at h
      · cases h
      · rename_i h3
        split at h
        · rename_i h4
          cases h
          exact .inl ⟨⟨by simpa using h1, by simpa using h2, by simpa using h3, h4⟩, rfl⟩
        · rename_i h4
          cases h
          exact .inr (.inl ⟨⟨by simpa using h1, by simpa using h2, by simpa using h3, h4⟩, rfl⟩)
        · cases h

/-- A completed store keeps the canonical form of memory. -/
theorem storeMem_wf {s t : State} {w : Width} {a v : Word} (h : storeMem s w a v = .ok t) (hm : Memory.wf s.mem) :
    Memory.wf t.mem := by
  rcases storeMem_ok h with ⟨hs, rfl⟩ | ⟨_, rfl⟩ | ⟨_, _, ht⟩
  · exact write_wf hm w (aligned_room hs.1) v
  · exact hm
  · obtain ⟨c, rfl⟩ := tcipWrite_ok ht
    exact hm

/-- What a completed access goes on with. -/
theorem elim_next {α : Type} {s t : State} {r : Res α} {k : α → Out} (h : r.elim s k = .next t) :
    (∃ v, r = .ok v ∧ k v = .next t) ∨ (∃ code, r = .exc code ∧ t = raise s code) := by
  cases r with
  | ok v => exact .inl ⟨v, rfl, h⟩
  | exc code => exact .inr ⟨code, rfl, by cases h; rfl⟩
  | fault f => cases h
  | refused r => cases h

/-- A load instruction that memory answers writes what it read. -/
theorem writes_of_loadTo {i : Instr} {s : State} {w : Width} {a len : Word} {rd : Reg} {ext : Word → Word}
    (he : exec i s = loadTo s len w rd a ext) (h : LoadsFromMemory s w a) :
    Writes i s rd (ext (Memory.read s.mem w (mainAddr a))) len := by
  refine writes_of_writeTo (he.trans ?_)
  simp [loadTo, loadMem_memory h, Res.elim, writeTo]

/-- A store instruction that memory takes stores the low bytes of its operand and changes nothing else. -/
theorem stores_of_storeFrom {i : Instr} {s : State} {w : Width} {a v len : Word}
    (he : exec i s = storeFrom s len w a v) (h : StoresToMemory s w a) (hm : Memory.wf s.mem) : Stores i s w a v len := by
  have he : exec i s = .next ((storeMain s w (mainAddr a) v).retire len) := by
    rw [he, storeFrom, storeMem_memory h]; rfl
  refine ⟨_, he, ?_, ?_, ?_, ?_, ?_, ?_, ?_⟩
  · intro k hk
    simpa using readByte_write_same hm.1 w (mainAddr a) v hk
  · intro b hb
    have hb : ¬ (mainAddr a ≤ b ∧ b < mainAddr a + w.bytes) := hb
    have := readByte_write_other s.mem w v (a := mainAddr a) (b := b) (by omega)
    simpa using this
  · intro r _
    simp [State.retire]
  · simp
  · intro b
    simpa [InBytes] using mem_insertAddrs s.stale (mainAddr a) w.bytes b
  · simp [SameSystem, State.retire]
  · exact countedOne_retireTo_of (by simp) (by simp) (by simp) _

/-- What a fetch that completes reads: memory, or a device's free value, at a location not stored to since FENCE.I. -/
theorem fetchMain_ok {s : State} {w : Width} {a : Nat} {v : Word} (h : fetchMain s w a = .ok v) :
    isStale s.stale a w.bytes = false ∧
      ((response s .fetch a = .memory ∧ v = Memory.read s.mem w a) ∨
        (response s .fetch a = .device ∧ v = deviceData (toDevice s .fetch w a 0) w)) := by
  cases hr : response s .fetch a <;> cases hs : isStale s.stale a w.bytes <;>
    simp [fetchMain, hr, hs] at h ⊢ <;> exact h.symm

/-- A jump table word that can be read. -/
theorem fetchTable_ok {s : State} {a : Word} (h : TableReadable s a) :
    fetchTable s a = .ok (Memory.read s.mem .word (mainAddr a)) := by
  obtain ⟨h1, h2, h3⟩ := h
  simp [fetchTable, fetchMain, h1, h2, Width.bytes, h3]

/-! ## CSR instructions (40_rv32e_base.md R240) -/

/-- What a CSR instruction that writes can answer. -/
theorem csrModify_next {s t : State} {rd : Reg} {n : BitVec 12} {f : CsrName → Word → State}
    (h : csrModify s rd n f = .next t) :
    (csrAccess s n true = .illegal ∧ t = raise s 2) ∨
      (∃ c, csrAccess s n true = .readOnly c ∧ t = (s.setX rd (csrRead s c)).retire 4) ∨
      (∃ c, csrAccess s n true = .ok c ∧ t = retireCsr s ((f c (csrRead s c)).setX rd (csrRead s c)) c) := by
  unfold csrModify at h
  split at h
  · cases h; exact .inl ⟨‹_›, rfl⟩
  · cases h
  · cases h; exact .inr (.inl ⟨_, ‹_›, rfl⟩)
  · cases h; exact .inr (.inr ⟨_, ‹_›, rfl⟩)

/-- What a CSR instruction that only reads can answer. -/
theorem csrFetch_next {s t : State} {rd : Reg} {n : BitVec 12} (h : csrFetch s rd n = .next t) :
    (csrAccess s n false = .illegal ∧ t = raise s 2) ∨
      (∃ c, (csrAccess s n false = .readOnly c ∨ csrAccess s n false = .ok c) ∧
        t = (s.setX rd (csrRead s c)).retire 4) := by
  unfold csrFetch at h
  split at h
  · cases h; exact .inl ⟨‹_›, rfl⟩
  · cases h
  · cases h; exact .inr ⟨_, .inl ‹_›, rfl⟩
  · cases h; exact .inr ⟨_, .inr ‹_›, rfl⟩

/-- The retirement of a CSR instruction keeps everything but the pc and the counters. -/
theorem retireCsr_frame (s t : State) (c : CsrName) :
    (retireCsr s t c).cfg = t.cfg ∧ (retireCsr s t c).regs = t.regs ∧ (retireCsr s t c).csr = t.csr ∧
      (retireCsr s t c).dbg = t.dbg ∧ (retireCsr s t c).clic = t.clic ∧ (retireCsr s t c).pins = t.pins ∧
      (retireCsr s t c).mem = t.mem ∧ (retireCsr s t c).stale = t.stale ∧ (retireCsr s t c).sleeping = t.sleeping ∧
      (retireCsr s t c).trapStack = t.trapStack ∧ (retireCsr s t c).cop = t.cop ∧
      (retireCsr s t c).devices = t.devices ∧ (retireCsr s t c).inputs = t.inputs ∧ (retireCsr s t c).tick = t.tick := by
  unfold retireCsr
  split
  · simp
  · split <;> simp

/-- A CSR write changes the CSRs, the counters and the debug unit only. -/
theorem csrWrite_frame (s : State) (c : CsrName) (v : Word) :
    (csrWrite s c v).cfg = s.cfg ∧ (csrWrite s c v).regs = s.regs ∧ (csrWrite s c v).pc = s.pc ∧
      (csrWrite s c v).clic = s.clic ∧ (csrWrite s c v).pins = s.pins ∧ (csrWrite s c v).mem = s.mem ∧
      (csrWrite s c v).stale = s.stale ∧ (csrWrite s c v).sleeping = s.sleeping ∧
      (csrWrite s c v).trapStack = s.trapStack ∧ (csrWrite s c v).cop = s.cop ∧
      (csrWrite s c v).devices = s.devices ∧ (csrWrite s c v).inputs = s.inputs ∧ (csrWrite s c v).tick = s.tick := by
  cases c <;> simp [csrWrite]

/-- Two CSR writes that agree on all a CSR write can change leave the same state. -/
theorem csrWrite_eq_of_sameCsrs {s : State} {c : CsrName} {v w : Word} (h : sameCsrs (csrWrite s c v) (csrWrite s c w) = true) :
    csrWrite s c v = csrWrite s c w := by
  obtain ⟨h1, h2, h3⟩ := of_decide_eq_true h
  have a := csrWrite_frame s c v
  have b := csrWrite_frame s c w
  generalize csrWrite s c v = x at *
  generalize csrWrite s c w = y at *
  cases x
  cases y
  simp_all

/-- CSRRWI writes by the one reading CSRRWI_UPPER names (40_rv32e_base.md R244). -/
theorem csrWriteImm_eq (s : State) (imm : BitVec 5) (c : CsrName) (t : Word) :
    csrWriteImm s imm c t =
      match Config.csrrwiUpper with
      | .preserve => csrWrite s c (t.extractLsb' 5 27 ++ imm)
      | .zero => csrWrite s c (zext5 imm) := by
  simp only [csrWriteImm]
  by_cases h : sameCsrs (csrWrite s c (zext5 imm)) (csrWrite s c (t.extractLsb' 5 27 ++ imm)) = true
  · rw [if_pos h]
    cases Config.csrrwiUpper
    · exact csrWrite_eq_of_sameCsrs h
    · rfl
  · refine (if_neg h).trans ?_
    cases Config.csrrwiUpper <;> rfl

/-! ## The step -/

/-- In a legal build a step that brings no reset decides on the hart alone (20_memory.md R104). -/
theorem boundary_undisturbed {s : State} (h : Undisturbed s) :
    boundary (sample s (nextInput s)) (nextInput s) = hartBoundary (sample s (nextInput s)) (nextInput s) := by
  simp [boundary, h.1, h.2]

/-- A build the manual forbids does not run (20_memory.md R104). -/
theorem step_illegalBuild {s : State} (h : s.cfg.wf = false) : step s = .refused .illegalBuild := by
  simp [step, boundary, h, stepFrom]

/-- Where no interrupt is taken, the boundary is what the triggers make it. -/
theorem interruptBoundary_none {s : State} (h : NoInterrupt s) :
    interruptBoundary (sample s (nextInput s)) = triggerBoundary (sample s (nextInput s)) := by
  rcases h with h | ⟨hd, hs, he⟩ | h
  · simp [interruptBoundary, interruptsOn, h]
  · have hd : (sample s (nextInput s)).hasDebug = true := hd
    simp [interruptBoundary, interruptsOn, hd, hs, he]
  · simp [interruptBoundary, h]

/-- An unhindered step of a hart that is awake, or that something wakes, runs the instruction at the pc. -/
theorem step_unhindered {s : State} (h : Unhindered s) (hs : s.sleeping = false ∨ wakes (sample s (nextInput s)) = true) :
    step s = afterInstr (runInstr (wake (sample s (nextInput s)))) := by
  obtain ⟨⟨hu, hd, hr, hl⟩, hi, ht⟩ := h
  have e : (sample s (nextInput s)).dbg.triggers.any (armed (sample s (nextInput s))) = false := ht
  simp only [sample_triggers] at e
  have a : (s.sleeping && !wakes (sample s (nextInput s))) = false := by rcases hs with h | h <;> simp [h]
  simp [step, boundary_undisturbed hu, hartBoundary, debugRequest, interruptBoundary_none hi, triggerBoundary, hd, hr, hl, a,
    e, stepFrom]

/-- A quiet step runs the instruction at the pc. -/
theorem step_quiet {s : State} (h : Quiet s) : step s = afterInstr (runInstr (wake (sample s (nextInput s)))) :=
  step_unhindered h.1 (.inl h.2)

/-- What the single-step rule makes of a completed instruction. -/
theorem afterInstr_next {o : Out} {t : State} (h : afterInstr o = .next t) : ∃ s, o = .next s ∧ t = stepDone s := by
  cases o with
  | next s => exact ⟨s, rfl, by cases h; rfl⟩
  | fault f => cases h
  | refused r => cases h

/-- What a step that completes did, by what happened at its boundary. -/
theorem step_cases {s t : State} (h : step s = .next t) :
    let u := sample s (nextInput s)
    (boundary u (nextInput s) = .run ∧ ∃ v, runInstr (wake u) = .next v ∧ t = stepDone v) ∨
      (boundary u (nextInput s) = .stay ∧ t = u) ∨
      (∃ c, boundary u (nextInput s) = .command c ∧ debugCommand u c = .next t) ∨
      (∃ c k, boundary u (nextInput s) = .halt c k ∧ t = enterDebug u c k) ∨
      (∃ id, boundary u (nextInput s) = .interrupt id ∧ takeInterrupt u id = .next t) ∨
      (boundary u (nextInput s) = .breakpoint ∧ t = raise (wake u) 3) ∨
      (∃ r b, boundary u (nextInput s) = .reset r b ∧ t = platformReset u r b) := by
  intro u
  have h : stepFrom u (boundary u (nextInput s)) = .next t := h
  cases hb : boundary u (nextInput s) with
  | run =>
    rw [hb] at h
    exact .inl ⟨rfl, afterInstr_next h⟩
  | stay => rw [hb] at h; injection h with h; exact .inr (.inl ⟨rfl, h.symm⟩)
  | command c => rw [hb] at h; exact .inr (.inr (.inl ⟨c, rfl, h⟩))
  | halt c k => rw [hb] at h; injection h with h; exact .inr (.inr (.inr (.inl ⟨c, k, rfl, h.symm⟩)))
  | interrupt id => rw [hb] at h; exact .inr (.inr (.inr (.inr (.inl ⟨id, rfl, h⟩))))
  | breakpoint => rw [hb] at h; injection h with h; exact .inr (.inr (.inr (.inr (.inr (.inl ⟨rfl, h.symm⟩)))))
  | reset r b => rw [hb] at h; injection h with h; exact .inr (.inr (.inr (.inr (.inr (.inr ⟨r, b, rfl, h.symm⟩)))))
  | fault f => rw [hb] at h; cases h
  | refused r => rw [hb] at h; cases h

/-- What an instruction's run that completes did: a fetch exception, an instruction, or a word that is none. -/
theorem runInstr_next {s t : State} (h : runInstr s = .next t) :
    (∃ i, fetchInstr s = .ok (.ok i) ∧ exec i s = .next t) ∨
      (∃ e, fetchInstr s = .ok (.error e) ∧ execReject s e = .next t) ∨
      (∃ code, fetchInstr s = .exc code ∧ t = raise s code) := by
  rcases elim_next h with ⟨d, hd, hk⟩ | ⟨code, hc, rfl⟩
  · cases d with
    | ok i => exact .inl ⟨i, hd, hk⟩
    | error e => exact .inr (.inl ⟨e, hd, hk⟩)
  · exact .inr (.inr ⟨code, hc, rfl⟩)

/-- What a word that is no instruction can do: raise illegal instruction. -/
theorem execReject_next {s t : State} {e : Reject} (h : execReject s e = .next t) : t = raise s 2 := by
  cases e <;> simp only [execReject] at h
  · cases h; rfl
  · cases h
  · split at h <;> cases h; rfl
  · split at h <;> cases h; rfl
  · cases h; rfl

end Sys2Proof.Machine
end

