-- ==== Sys2Proof/Tests/Slice0.lean ====
section
/-!
SUPPORT. Tests. Expected values come from the spec: the examples of the rules of spec/40 to spec/45, the vectors of
spec/95_test_vectors.md and hand calculation from the rules. The last part shows, for each statement with hypotheses,
states and operands that meet them.
-/

namespace Sys2Proof.Tests

open Sys2Proof.Machine

/-! ## Each check of WellFormed refuses an ill-formed term (the constraints of spec/opcode_table.json) -/

theorem test_wf_cAdd_rd : Instr.wf (.cAdd 0 6) = false := by decide
theorem test_wf_cAdd_rs2 : Instr.wf (.cAdd 5 0) = false := by decide
theorem test_wf_cAddi_rd : Instr.wf (.cAddi 0 1) = false := by decide
theorem test_wf_cAddi_imm : Instr.wf (.cAddi 5 0) = false := by decide
theorem test_wf_cAddi4spn : Instr.wf (.cAddi4spn 1 0) = false := by decide
theorem test_wf_cAddi16sp : Instr.wf (.cAddi16sp 0) = false := by decide
theorem test_wf_cJalr : Instr.wf (.cJalr 0) = false := by decide
theorem test_wf_cJr : Instr.wf (.cJr 0) = false := by decide
theorem test_wf_cLi : Instr.wf (.cLi 0 1) = false := by decide
theorem test_wf_cLui_zero : Instr.wf (.cLui 0 1) = false := by decide
theorem test_wf_cLui_sp : Instr.wf (.cLui 2 1) = false := by decide
theorem test_wf_cLui_imm : Instr.wf (.cLui 5 0) = false := by decide
theorem test_wf_cLwsp : Instr.wf (.cLwsp 0 1) = false := by decide
theorem test_wf_cMv_rd : Instr.wf (.cMv 0 6) = false := by decide
theorem test_wf_cMv_rs2 : Instr.wf (.cMv 5 0) = false := by decide
theorem test_wf_cSlli_rd : Instr.wf (.cSlli 0 3) = false := by decide
theorem test_wf_cSlli_shamt : Instr.wf (.cSlli 5 0) = false := by decide
theorem test_wf_cSrai : Instr.wf (.cSrai 0 0) = false := by decide
theorem test_wf_cSrli : Instr.wf (.cSrli 0 0) = false := by decide
theorem test_wf_cmMvsa01 : Instr.wf (.cmMvsa01 .s0 .s0) = false := by decide
theorem test_wf_cmJalt : Instr.wf (.cmJalt 31) = false := by decide

/-! ## Decoding: the example word of each rule (spec/40 to spec/45) -/

theorem test_decode_add : decodeTableWord 32 0x007302B3 = some (.add 5 6 7) := by decide
theorem test_decode_addi : decodeTableWord 32 0xFFF30293 = some (.addi 5 6 0xFFF) := by decide
theorem test_decode_and : decodeTableWord 32 0x007372B3 = some (.and 5 6 7) := by decide
theorem test_decode_andi : decodeTableWord 32 0x0FF37293 = some (.andi 5 6 255) := by decide
theorem test_decode_auipc : decodeTableWord 32 0x00012297 = some (.auipc 5 0x12) := by decide
theorem test_decode_beq : decodeTableWord 32 0x00628463 = some (.beq 5 6 4) := by decide
theorem test_decode_bge : decodeTableWord 32 0xFE62DEE3 = some (.bge 5 6 0xffe) := by decide
theorem test_decode_bgeu : decodeTableWord 32 0x0062F863 = some (.bgeu 5 6 8) := by decide
theorem test_decode_blt : decodeTableWord 32 0x0062C663 = some (.blt 5 6 6) := by decide
theorem test_decode_bltu : decodeTableWord 32 0xFE62ECE3 = some (.bltu 5 6 0xffc) := by decide
theorem test_decode_bne : decodeTableWord 32 0xFE029EE3 = some (.bne 5 0 0xffe) := by decide
theorem test_decode_csrrc : decodeTableWord 32 0x30033073 = some (.csrrc 0 6 0x300) := by decide
theorem test_decode_csrrci : decodeTableWord 32 0x30047073 = some (.csrrci 0 8 0x300) := by decide
theorem test_decode_csrrs : decodeTableWord 32 0x300022F3 = some (.csrrs 5 0 0x300) := by decide
theorem test_decode_csrrsi : decodeTableWord 32 0x30046073 = some (.csrrsi 0 8 0x300) := by decide
theorem test_decode_csrrw : decodeTableWord 32 0x340312F3 = some (.csrrw 5 6 0x340) := by decide
theorem test_decode_csrrwi : decodeTableWord 32 0x3402D073 = some (.csrrwi 0 5 0x340) := by decide
theorem test_decode_ebreak : decodeTableWord 32 0x00100073 = some .ebreak := by decide
theorem test_decode_ecall : decodeTableWord 32 0x00000073 = some .ecall := by decide
theorem test_decode_fence : decodeTableWord 32 0x0FF0000F = some (.fence 15 15) := by decide
theorem test_decode_fenceI : decodeTableWord 32 0x0000100F = some .fenceI := by decide
theorem test_decode_jal : decodeTableWord 32 0x100000EF = some (.jal 1 128) := by decide
theorem test_decode_jalr : decodeTableWord 32 0x003280E7 = some (.jalr 1 5 3) := by decide
theorem test_decode_lb : decodeTableWord 32 0xFFF30283 = some (.lb 5 6 0xfff) := by decide
theorem test_decode_lbu : decodeTableWord 32 0x00334283 = some (.lbu 5 6 3) := by decide
theorem test_decode_lh : decodeTableWord 32 0x00231283 = some (.lh 5 6 2) := by decide
theorem test_decode_lhu : decodeTableWord 32 0x00235283 = some (.lhu 5 6 2) := by decide
theorem test_decode_lui : decodeTableWord 32 0xE08002B7 = some (.lui 5 0xe0800) := by decide
theorem test_decode_lw : decodeTableWord 32 0x00812283 = some (.lw 5 2 8) := by decide
theorem test_decode_mret : decodeTableWord 32 0x30200073 = some .mret := by decide
theorem test_decode_or : decodeTableWord 32 0x007362B3 = some (.or 5 6 7) := by decide
theorem test_decode_ori : decodeTableWord 32 0xF0036293 = some (.ori 5 6 0xf00) := by decide
theorem test_decode_sb : decodeTableWord 32 0x005300A3 = some (.sb 5 6 1) := by decide
theorem test_decode_sh : decodeTableWord 32 0xFE531F23 = some (.sh 5 6 0xffe) := by decide
theorem test_decode_sll : decodeTableWord 32 0x007312B3 = some (.sll 5 6 7) := by decide
theorem test_decode_slli : decodeTableWord 32 0x01F31293 = some (.slli 5 6 31) := by decide
theorem test_decode_slt : decodeTableWord 32 0x007322B3 = some (.slt 5 6 7) := by decide
theorem test_decode_slti : decodeTableWord 32 0xFFF32293 = some (.slti 5 6 0xfff) := by decide
theorem test_decode_sltiu : decodeTableWord 32 0x00133293 = some (.sltiu 5 6 1) := by decide
theorem test_decode_sltu : decodeTableWord 32 0x006032B3 = some (.sltu 5 0 6) := by decide
theorem test_decode_sra : decodeTableWord 32 0x407352B3 = some (.sra 5 6 7) := by decide
theorem test_decode_srai : decodeTableWord 32 0x40435293 = some (.srai 5 6 4) := by decide
theorem test_decode_srl : decodeTableWord 32 0x007352B3 = some (.srl 5 6 7) := by decide
theorem test_decode_srli : decodeTableWord 32 0x00435293 = some (.srli 5 6 4) := by decide
theorem test_decode_sub : decodeTableWord 32 0x407302B3 = some (.sub 5 6 7) := by decide
theorem test_decode_sw : decodeTableWord 32 0x00512623 = some (.sw 5 2 12) := by decide
theorem test_decode_wfi : decodeTableWord 32 0x10500073 = some .wfi := by decide
theorem test_decode_xor : decodeTableWord 32 0x007342B3 = some (.xor 5 6 7) := by decide
theorem test_decode_xori : decodeTableWord 32 0xFFF34293 = some (.xori 5 6 0xfff) := by decide
theorem test_decode_mul : decodeTableWord 32 0x027302B3 = some (.mul 5 6 7) := by decide
theorem test_decode_mulh : decodeTableWord 32 0x027312B3 = some (.mulh 5 6 7) := by decide
theorem test_decode_mulhsu : decodeTableWord 32 0x027322B3 = some (.mulhsu 5 6 7) := by decide
theorem test_decode_mulhu : decodeTableWord 32 0x027332B3 = some (.mulhu 5 6 7) := by decide
theorem test_decode_sh1add : decodeTableWord 32 0x207322B3 = some (.sh1add 5 6 7) := by decide
theorem test_decode_sh2add : decodeTableWord 32 0x207342B3 = some (.sh2add 5 6 7) := by decide
theorem test_decode_sh3add : decodeTableWord 32 0x207362B3 = some (.sh3add 5 6 7) := by decide
theorem test_decode_andn : decodeTableWord 32 0x407372B3 = some (.andn 5 6 7) := by decide
theorem test_decode_orn : decodeTableWord 32 0x407362B3 = some (.orn 5 6 7) := by decide
theorem test_decode_xnor : decodeTableWord 32 0x407342B3 = some (.xnor 5 6 7) := by decide
theorem test_decode_clz : decodeTableWord 32 0x60031293 = some (.clz 5 6) := by decide
theorem test_decode_ctz : decodeTableWord 32 0x60131293 = some (.ctz 5 6) := by decide
theorem test_decode_cpop : decodeTableWord 32 0x60231293 = some (.cpop 5 6) := by decide
theorem test_decode_max : decodeTableWord 32 0x0A7362B3 = some (.max 5 6 7) := by decide
theorem test_decode_maxu : decodeTableWord 32 0x0A7372B3 = some (.maxu 5 6 7) := by decide
theorem test_decode_min : decodeTableWord 32 0x0A7342B3 = some (.min 5 6 7) := by decide
theorem test_decode_minu : decodeTableWord 32 0x0A7352B3 = some (.minu 5 6 7) := by decide
theorem test_decode_sextB : decodeTableWord 32 0x60431293 = some (.sextB 5 6) := by decide
theorem test_decode_sextH : decodeTableWord 32 0x60531293 = some (.sextH 5 6) := by decide
theorem test_decode_zextH : decodeTableWord 32 0x080342B3 = some (.zextH 5 6) := by decide
theorem test_decode_rol : decodeTableWord 32 0x607312B3 = some (.rol 5 6 7) := by decide
theorem test_decode_ror : decodeTableWord 32 0x607352B3 = some (.ror 5 6 7) := by decide
theorem test_decode_rori : decodeTableWord 32 0x60835293 = some (.rori 5 6 8) := by decide
theorem test_decode_orcB : decodeTableWord 32 0x28735293 = some (.orcB 5 6) := by decide
theorem test_decode_rev8 : decodeTableWord 32 0x69835293 = some (.rev8 5 6) := by decide
theorem test_decode_bclr : decodeTableWord 32 0x487312B3 = some (.bclr 5 6 7) := by decide
theorem test_decode_bclri : decodeTableWord 32 0x49F31293 = some (.bclri 5 6 31) := by decide
theorem test_decode_bext : decodeTableWord 32 0x487352B3 = some (.bext 5 6 7) := by decide
theorem test_decode_bexti : decodeTableWord 32 0x49F35293 = some (.bexti 5 6 31) := by decide
theorem test_decode_binv : decodeTableWord 32 0x687312B3 = some (.binv 5 6 7) := by decide
theorem test_decode_binvi : decodeTableWord 32 0x68031293 = some (.binvi 5 6 0) := by decide
theorem test_decode_bset : decodeTableWord 32 0x287312B3 = some (.bset 5 6 7) := by decide
theorem test_decode_bseti : decodeTableWord 32 0x28431293 = some (.bseti 5 6 4) := by decide
theorem test_decode_cAdd : decodeTableWord 16 0x929A = some (.cAdd 5 6) := by decide
theorem test_decode_cAddi : decodeTableWord 16 0x12FD = some (.cAddi 5 0x3f) := by decide
theorem test_decode_cAddi4spn : decodeTableWord 16 0x0800 = some (.cAddi4spn 0 4) := by decide
theorem test_decode_cAddi16sp : decodeTableWord 16 0x713D = some (.cAddi16sp 0x3e) := by decide
theorem test_decode_cAnd : decodeTableWord 16 0x8C65 = some (.cAnd 0 1) := by decide
theorem test_decode_cAndi : decodeTableWord 16 0x9841 = some (.cAndi 0 0x30) := by decide
theorem test_decode_cBeqz : decodeTableWord 16 0xC401 = some (.cBeqz 0 4) := by decide
theorem test_decode_cBnez : decodeTableWord 16 0xFCED = some (.cBnez 1 0xfd) := by decide
theorem test_decode_cEbreak : decodeTableWord 16 0x9002 = some .cEbreak := by decide
theorem test_decode_cJ : decodeTableWord 16 0xBFF5 = some (.cJ 0x7fe) := by decide
theorem test_decode_cJal : decodeTableWord 16 0x2005 = some (.cJal 16) := by decide
theorem test_decode_cJalr : decodeTableWord 16 0x9282 = some (.cJalr 5) := by decide
theorem test_decode_cJr : decodeTableWord 16 0x8082 = some (.cJr 1) := by decide
theorem test_decode_cLi : decodeTableWord 16 0x557D = some (.cLi 10 0x3f) := by decide
theorem test_decode_cLui : decodeTableWord 16 0x6285 = some (.cLui 5 1) := by decide
theorem test_decode_cLw : decodeTableWord 16 0x4144 = some (.cLw 1 2 1) := by decide
theorem test_decode_cLwsp : decodeTableWord 16 0x40B2 = some (.cLwsp 1 3) := by decide
theorem test_decode_cMv : decodeTableWord 16 0x829A = some (.cMv 5 6) := by decide
theorem test_decode_cNop : decodeTableWord 16 0x0001 = some .cNop := by decide
theorem test_decode_cOr : decodeTableWord 16 0x8C45 = some (.cOr 0 1) := by decide
theorem test_decode_cSlli : decodeTableWord 16 0x028E = some (.cSlli 5 3) := by decide
theorem test_decode_cSrai : decodeTableWord 16 0x8411 = some (.cSrai 0 4) := by decide
theorem test_decode_cSrli : decodeTableWord 16 0x8011 = some (.cSrli 0 4) := by decide
theorem test_decode_cSw : decodeTableWord 16 0xC144 = some (.cSw 1 2 1) := by decide
theorem test_decode_cSwsp : decodeTableWord 16 0xC606 = some (.cSwsp 1 3) := by decide
theorem test_decode_cSub : decodeTableWord 16 0x8C05 = some (.cSub 0 1) := by decide
theorem test_decode_cXor : decodeTableWord 16 0x8C25 = some (.cXor 0 1) := by decide
theorem test_decode_cLbu : decodeTableWord 16 0x80E0 = some (.cLbu 0 1 3) := by decide
theorem test_decode_cLhu : decodeTableWord 16 0x84A0 = some (.cLhu 0 1 1) := by decide
theorem test_decode_cLh : decodeTableWord 16 0x84E0 = some (.cLh 0 1 1) := by decide
theorem test_decode_cSb : decodeTableWord 16 0x88C0 = some (.cSb 0 1 1) := by decide
theorem test_decode_cSh : decodeTableWord 16 0x8CA0 = some (.cSh 0 1 1) := by decide
theorem test_decode_cZextB : decodeTableWord 16 0x9C61 = some (.cZextB 0) := by decide
theorem test_decode_cSextB : decodeTableWord 16 0x9C65 = some (.cSextB 0) := by decide
theorem test_decode_cZextH : decodeTableWord 16 0x9C69 = some (.cZextH 0) := by decide
theorem test_decode_cSextH : decodeTableWord 16 0x9C6D = some (.cSextH 0) := by decide
theorem test_decode_cNot : decodeTableWord 16 0x9C75 = some (.cNot 0) := by decide
theorem test_decode_cMul : decodeTableWord 16 0x9C45 = some (.cMul 0 1) := by decide
theorem test_decode_cmPush : decodeTableWord 16 0xB866 = some (.cmPush .raS0S1 1) := by decide
theorem test_decode_cmPop : decodeTableWord 16 0xBA52 = some (.cmPop .raS0 0) := by decide
theorem test_decode_cmPopretz : decodeTableWord 16 0xBC62 = some (.cmPopretz .raS0S1 0) := by decide
theorem test_decode_cmPopret : decodeTableWord 16 0xBE42 = some (.cmPopret .ra 0) := by decide
theorem test_decode_cmMvsa01 : decodeTableWord 16 0xAC26 = some (.cmMvsa01 .s0 .s1) := by decide
theorem test_decode_cmMva01s : decodeTableWord 16 0xACE2 = some (.cmMva01s .s1 .s0) := by decide
theorem test_decode_cmJt : decodeTableWord 16 0xA00E = some (.cmJt 3) := by decide
theorem test_decode_cmJalt : decodeTableWord 16 0xA082 = some (.cmJalt 32) := by decide
theorem test_decode_cpx0 : decodeTableWord 32 0x40A30ADB = some (.cpx0 1 6 0x155) := by decide
theorem test_decode_cpx1 : decodeTableWord 32 0x0203005B = some (.cpx1 0 6) := by decide
theorem test_decode_cpx2 : decodeTableWord 32 0x807312DB = some (.cpx2 2 5 6 7) := by decide
theorem test_decode_cpx3 : decodeTableWord 32 0xC20312DB = some (.cpx3 3 5 6) := by decide
theorem test_decode_cpx4 : decodeTableWord 32 0x04730FDB = some (.cpx4 0 6 7 31) := by decide
theorem test_decode_cpx5 : decodeTableWord 32 0x4673005B = some (.cpx5 1 6 7) := by decide
theorem test_decode_cpx6 : decodeTableWord 32 0x047312DB = some (.cpx6 0 5 6 7) := by decide
theorem test_decode_cpx9 : decodeTableWord 32 0x3FF372DB = some (.cpx9 0 5 6 1023) := by decide

/-! ## The encodings field by field, one instruction of each family (spec/30_encoding.md R143 to R159, spec/40 to spec/45) -/

theorem test_bits_add : decodeTableWord 32 0b0000000_00111_00110_000_00101_0110011 = some (.add 5 6 7) := by decide
theorem test_bits_sw : decodeTableWord 32 0b0000000_00101_00010_010_01100_0100011 = some (.sw 5 2 12) := by decide
theorem test_bits_beq : decodeTableWord 32 0b1_111111_00110_00101_000_1110_1_1100011 = some (.beq 5 6 0xFFE) := by decide
theorem test_bits_jal : decodeTableWord 32 0b0_0010000000_0_00000000_00001_1101111 = some (.jal 1 128) := by decide
theorem test_bits_csrrw : decodeTableWord 32 0b001101000000_00110_001_00101_1110011 = some (.csrrw 5 6 0x340) := by decide
theorem test_bits_mulhsu : decodeTableWord 32 0b0000001_00111_00110_010_00101_0110011 = some (.mulhsu 5 6 7) := by decide
theorem test_bits_rori : decodeTableWord 32 0b0110000_01000_00110_101_00101_0010011 = some (.rori 5 6 8) := by decide
theorem test_bits_cAdd : decodeTableWord 16 0b100_1_00101_00110_10 = some (.cAdd 5 6) := by decide
theorem test_bits_cJ : decodeTableWord 16 0b101_1_1_11_1_1_1_110_1_01 = some (.cJ 0x7FE) := by decide
theorem test_bits_cAddi16sp : decodeTableWord 16 0b011_1_00010_0_1_11_1_01 = some (.cAddi16sp 0x3E) := by decide
theorem test_bits_cLbu : decodeTableWord 16 0b100000_001_1_1_000_00 = some (.cLbu 0 1 3) := by decide
theorem test_bits_cmPush : decodeTableWord 16 0b101_11000_0110_01_10 = some (.cmPush .raS0S1 1) := by decide
theorem test_bits_cmJt : decodeTableWord 16 0b101_000_00000011_10 = some (.cmJt 3) := by decide
theorem test_bits_cpx0 : decodeTableWord 32 0b01_00000_01010_00110_000_10101_1011011 = some (.cpx0 1 6 0x155) := by decide

/-- A word that breaks a constraint is unsettled, one no row matches is illegal, and a register above x15 is illegal
(R160, R161, R163). -/
theorem test_reject_unsettled : decode16 0x8002 = .error .unsettled := by decide
theorem test_reject_illegal : decode16 0x0000 = .error .illegal := by decide
theorem test_reject_high_register : decode32 0x00730833 = .error .illegal := by decide
/-- CM.MVSA01 and CM.MVA01S naming s2 are illegal (R23, C20); CM.MVSA01 with equal registers is unsettled (R163 k). -/
theorem test_reject_move_s2 : decode16 0b101011_010_01_000_10 = .error .illegal ∧
    decode16 0b101011_000_11_010_10 = .error .illegal ∧ decode16 0b101011_000_01_000_10 = .error .unsettled := by decide
theorem test_reject_custom : decode32 0x0000002B = .error (.custom 0x2B) := by decide
/-- A custom word in a build with coprocessors is refused, COPINSTEE = 0 or 1 (R165, D22; 95_test_vectors.md). -/
theorem test_custom_refused : execReject State.reset (.custom 0x0003205B) = .refused .customInstruction ∧
    execReject { State.reset with csr := { State.reset.csr with copEn := true } } (.custom 0x0003205B)
      = .refused .customInstruction := ⟨rfl, rfl⟩

/-! ## One instruction on a small state -/

/-- The state after reset at pc 0x100 with these registers. -/
def st (l : List (Reg × Word)) : State := l.foldl (fun s p => s.setX p.1 p.2) { State.reset with pc := 0x100 }

/-- The state with these words in memory. -/
def withWords (s : State) (l : List (Nat × Word)) : State :=
  { s with mem := l.foldl (fun m p => Memory.write m .word p.1 p.2) s.mem }

/-- A register of the next state. -/
def regAfter (o : Out) (r : Reg) : Option Word :=
  match o with
  | .next t => some (t.x r)
  | _ => none

/-- The pc of the next state. -/
def pcAfter (o : Out) : Option Word :=
  match o with
  | .next t => some t.pc
  | _ => none

/-- A CSR of the next state. -/
def csrAfter (o : Out) (c : CsrName) : Option Word :=
  match o with
  | .next t => some (csrRead t c)
  | _ => none

/-- A word of memory in the next state. -/
def wordAfter (o : Out) (a : Nat) : Option Word :=
  match o with
  | .next t => some (Memory.read t.mem .word a)
  | _ => none

/-- The next state, or the given one where there is none. -/
def after (s : State) (o : Out) : State :=
  match o with
  | .next t => t
  | _ => s

theorem test_add_wraps : regAfter (exec (.add 5 6 7) (st [(6, 0xffffffff), (7, 2)])) 5 = some 1 := by decide
theorem test_addi_minus_one : regAfter (exec (.addi 5 6 0xFFF) (st [(6, 0)])) 5 = some 0xffffffff := by decide
theorem test_sub_wraps : regAfter (exec (.sub 5 6 7) (st [(6, 0), (7, 1)])) 5 = some 0xffffffff := by decide
theorem test_and : regAfter (exec (.and 5 6 7) (st [(6, 0xf0f0f0f0), (7, 0xff00ff0)])) 5 = some 0xf000f0 := by decide
theorem test_andi : regAfter (exec (.andi 5 6 0xFF) (st [(6, 0x12345678)])) 5 = some 0x78 := by decide
theorem test_or : regAfter (exec (.or 5 6 7) (st [(6, 0xf0f0f0f0), (7, 0xff00ff0)])) 5 = some 0xfff0fff0 := by decide
theorem test_ori_sign_extends : regAfter (exec (.ori 5 6 0xF00) (st [(6, 0x12)])) 5 = some 0xffffff12 := by decide
theorem test_xor : regAfter (exec (.xor 5 6 7) (st [(6, 0xf0f0f0f0), (7, 0xff00ff0)])) 5 = some 0xff00ff00 := by decide
theorem test_xori : regAfter (exec (.xori 5 6 0xFFF) (st [(6, 0xffff)])) 5 = some 0xffff0000 := by decide
theorem test_slt_signed : regAfter (exec (.slt 5 6 7) (st [(6, 0x80000000), (7, 1)])) 5 = some 1 := by decide
theorem test_slti_signed : regAfter (exec (.slti 5 6 0xFFF) (st [(6, 0xfffffffe)])) 5 = some 1 := by decide
theorem test_sltiu_unsigned : regAfter (exec (.sltiu 5 6 0xFFF) (st [(6, 5)])) 5 = some 1 := by decide
theorem test_sltu : regAfter (exec (.sltu 5 0 6) (st [(6, 0x80000000)])) 5 = some 1 := by decide
theorem test_sll_low_five_bits : regAfter (exec (.sll 5 6 7) (st [(6, 1), (7, 0x21)])) 5 = some 2 := by decide
theorem test_slli : regAfter (exec (.slli 5 6 31) (st [(6, 3)])) 5 = some 0x80000000 := by decide
theorem test_srl : regAfter (exec (.srl 5 6 7) (st [(6, 0x80000000), (7, 4)])) 5 = some 0x8000000 := by decide
theorem test_srli : regAfter (exec (.srli 5 6 4) (st [(6, 0xf0000000)])) 5 = some 0xf000000 := by decide
theorem test_sra : regAfter (exec (.sra 5 6 7) (st [(6, 0x80000000), (7, 4)])) 5 = some 0xf8000000 := by decide
theorem test_srai : regAfter (exec (.srai 5 6 4) (st [(6, 0xf0000000)])) 5 = some 0xff000000 := by decide
theorem test_lui : regAfter (exec (.lui 5 0xE0800) (st [])) 5 = some 0xe0800000 := by decide
theorem test_auipc : regAfter (exec (.auipc 5 0x12) (st [])) 5 = some 0x12100 := by decide
theorem test_mul : regAfter (exec (.mul 5 6 7) (st [(6, 0x80000000), (7, 0xffffffff)])) 5 = some 0x80000000 := by decide
theorem test_mulh : regAfter (exec (.mulh 5 6 7) (st [(6, 0x80000000), (7, 0x80000000)])) 5 = some 0x40000000 := by decide
theorem test_mulhsu : regAfter (exec (.mulhsu 5 6 7) (st [(6, 0x80000000), (7, 0xffffffff)])) 5 = some 0x80000000 := by decide
theorem test_mulhu : regAfter (exec (.mulhu 5 6 7) (st [(6, 0xffffffff), (7, 0xffffffff)])) 5 = some 0xfffffffe := by decide
theorem test_sh1add : regAfter (exec (.sh1add 5 6 7) (st [(6, 0x80000003), (7, 0x10)])) 5 = some 0x16 := by decide
theorem test_sh2add : regAfter (exec (.sh2add 5 6 7) (st [(6, 3), (7, 0x1000)])) 5 = some 0x100c := by decide
theorem test_sh3add : regAfter (exec (.sh3add 5 6 7) (st [(6, 3), (7, 0x1000)])) 5 = some 0x1018 := by decide
theorem test_andn : regAfter (exec (.andn 5 6 7) (st [(6, 0xffff0000), (7, 0xf0f0f0f)])) 5 = some 0xf0f00000 := by decide
theorem test_orn : regAfter (exec (.orn 5 6 7) (st [(6, 0xffff0000), (7, 0xf0f0f0f)])) 5 = some 0xfffff0f0 := by decide
theorem test_xnor : regAfter (exec (.xnor 5 6 7) (st [(6, 0xffff0000), (7, 0xf0f0f0f)])) 5 = some 0xf0ff0f0 := by decide
theorem test_clz : regAfter (exec (.clz 5 6) (st [(6, 0x10000)])) 5 = some 0xf := by decide
theorem test_clz_zero : regAfter (exec (.clz 5 6) (st [(6, 0)])) 5 = some 0x20 := by decide
theorem test_ctz : regAfter (exec (.ctz 5 6) (st [(6, 0x10000)])) 5 = some 0x10 := by decide
theorem test_ctz_zero : regAfter (exec (.ctz 5 6) (st [(6, 0)])) 5 = some 0x20 := by decide
theorem test_cpop : regAfter (exec (.cpop 5 6) (st [(6, 0xf0f00001)])) 5 = some 9 := by decide
theorem test_max : regAfter (exec (.max 5 6 7) (st [(6, 0xffffffff), (7, 1)])) 5 = some 1 := by decide
theorem test_maxu : regAfter (exec (.maxu 5 6 7) (st [(6, 0xffffffff), (7, 1)])) 5 = some 0xffffffff := by decide
theorem test_min : regAfter (exec (.min 5 6 7) (st [(6, 0xffffffff), (7, 1)])) 5 = some 0xffffffff := by decide
theorem test_minu : regAfter (exec (.minu 5 6 7) (st [(6, 0xffffffff), (7, 1)])) 5 = some 1 := by decide
theorem test_sextB : regAfter (exec (.sextB 5 6) (st [(6, 0x12345680)])) 5 = some 0xffffff80 := by decide
theorem test_sextH : regAfter (exec (.sextH 5 6) (st [(6, 0x12348000)])) 5 = some 0xffff8000 := by decide
theorem test_zextH : regAfter (exec (.zextH 5 6) (st [(6, 0x1234ffff)])) 5 = some 0xffff := by decide
theorem test_rol : regAfter (exec (.rol 5 6 7) (st [(6, 0x80000001), (7, 4)])) 5 = some 0x18 := by decide
theorem test_ror : regAfter (exec (.ror 5 6 7) (st [(6, 0x80000001), (7, 4)])) 5 = some 0x18000000 := by decide
theorem test_rol_by_zero : regAfter (exec (.rol 5 6 7) (st [(6, 0x80000001), (7, 0x20)])) 5 = some 0x80000001 := by decide
theorem test_rori : regAfter (exec (.rori 5 6 8) (st [(6, 0x12345678)])) 5 = some 0x78123456 := by decide
theorem test_orcB : regAfter (exec (.orcB 5 6) (st [(6, 0x120001)])) 5 = some 0xff00ff := by decide
theorem test_rev8 : regAfter (exec (.rev8 5 6) (st [(6, 0x12345678)])) 5 = some 0x78563412 := by decide
theorem test_bclr : regAfter (exec (.bclr 5 6 7) (st [(6, 0xffffffff), (7, 0x24)])) 5 = some 0xffffffef := by decide
theorem test_bclri : regAfter (exec (.bclri 5 6 31) (st [(6, 0xffffffff)])) 5 = some 0x7fffffff := by decide
theorem test_bext : regAfter (exec (.bext 5 6 7) (st [(6, 0x10), (7, 4)])) 5 = some 1 := by decide
theorem test_bexti : regAfter (exec (.bexti 5 6 31) (st [(6, 0x80000000)])) 5 = some 1 := by decide
theorem test_binv : regAfter (exec (.binv 5 6 7) (st [(6, 0), (7, 0x1f)])) 5 = some 0x80000000 := by decide
theorem test_binvi : regAfter (exec (.binvi 5 6 0) (st [(6, 1)])) 5 = some 0 := by decide
theorem test_bset : regAfter (exec (.bset 5 6 7) (st [(6, 0), (7, 0x1f)])) 5 = some 0x80000000 := by decide
theorem test_bseti : regAfter (exec (.bseti 5 6 4) (st [(6, 0)])) 5 = some 0x10 := by decide
theorem test_cAdd : regAfter (exec (.cAdd 5 6) (st [(5, 0xffffffff), (6, 2)])) 5 = some 1 := by decide
theorem test_cAddi : regAfter (exec (.cAddi 5 0x3F) (st [(5, 0)])) 5 = some 0xffffffff := by decide
theorem test_cAddi4spn : regAfter (exec (.cAddi4spn 0 4) (st [(2, 0x1000)])) 8 = some 0x1010 := by decide
theorem test_cAddi16sp : regAfter (exec (.cAddi16sp 0x3E) (st [(2, 0x1000)])) 2 = some 0xfe0 := by decide
theorem test_cSub : regAfter (exec (.cSub 0 1) (st [(8, 1), (9, 2)])) 8 = some 0xffffffff := by decide
theorem test_cAnd : regAfter (exec (.cAnd 0 1) (st [(8, 0xf0f0f0f0), (9, 0xff00ff0)])) 8 = some 0xf000f0 := by decide
theorem test_cAndi : regAfter (exec (.cAndi 0 0x30) (st [(8, 0xff)])) 8 = some 0xf0 := by decide
theorem test_cOr : regAfter (exec (.cOr 0 1) (st [(8, 0xf0f0f0f0), (9, 0xff00ff0)])) 8 = some 0xfff0fff0 := by decide
theorem test_cXor : regAfter (exec (.cXor 0 0) (st [(8, 0x1234)])) 8 = some 0 := by decide
theorem test_cSlli : regAfter (exec (.cSlli 5 3) (st [(5, 0x20000001)])) 5 = some 8 := by decide
theorem test_cSrli : regAfter (exec (.cSrli 0 4) (st [(8, 0xf0000000)])) 8 = some 0xf000000 := by decide
theorem test_cSrai : regAfter (exec (.cSrai 0 4) (st [(8, 0xf0000000)])) 8 = some 0xff000000 := by decide
theorem test_cMv : regAfter (exec (.cMv 5 6) (st [(6, 0xabcd)])) 5 = some 0xabcd := by decide
theorem test_cLi : regAfter (exec (.cLi 10 0x3F) (st [])) 10 = some 0xffffffff := by decide
theorem test_cLui : regAfter (exec (.cLui 5 0x3F) (st [])) 5 = some 0xfffff000 := by decide
theorem test_cZextB : regAfter (exec (.cZextB 0) (st [(8, 0x12345680)])) 8 = some 0x80 := by decide
theorem test_cSextB : regAfter (exec (.cSextB 0) (st [(8, 0x12345680)])) 8 = some 0xffffff80 := by decide
theorem test_cZextH : regAfter (exec (.cZextH 0) (st [(8, 0x1234ffff)])) 8 = some 0xffff := by decide
theorem test_cSextH : regAfter (exec (.cSextH 0) (st [(8, 0x8000)])) 8 = some 0xffff8000 := by decide
theorem test_cNot : regAfter (exec (.cNot 0) (st [(8, 0xffff)])) 8 = some 0xffff0000 := by decide
theorem test_cMul : regAfter (exec (.cMul 0 1) (st [(8, 7), (9, 6)])) 8 = some 0x2a := by decide
theorem test_cmMvsa01 : regAfter (exec (.cmMvsa01 .s0 .s1) (st [(10, 1), (11, 2)])) 9 = some 2 := by decide
theorem test_cmMva01s : regAfter (exec (.cmMva01s .s1 .s0) (st [(8, 5), (9, 6)])) 10 = some 6 := by decide
theorem test_jalr_links : regAfter (exec (.jalr 1 5 3) (st [(5, 0x200)])) 1 = some 0x104 := by decide
theorem test_jalr_rd_is_rs1 : regAfter (exec (.jalr 5 5 3) (st [(5, 0x200)])) 5 = some 0x104 := by decide
theorem test_jal_links : regAfter (exec (.jal 1 128) (st [])) 1 = some 0x104 := by decide
theorem test_cJal_links : regAfter (exec (.cJal 16) (st [])) 1 = some 0x102 := by decide
theorem test_cJalr_links : regAfter (exec (.cJalr 5) (st [(5, 0x201)])) 1 = some 0x102 := by decide
theorem test_write_to_x0_is_dropped : regAfter (exec (.add 0 6 7) (st [(6, 1), (7, 2)])) 0 = some 0 := by decide
theorem test_pc_beq_taken : pcAfter (exec (.beq 5 6 4) (st [(5, 1), (6, 1)])) = some 0x108 := by decide
theorem test_pc_beq_not_taken : pcAfter (exec (.beq 5 6 4) (st [(5, 1), (6, 2)])) = some 0x104 := by decide
theorem test_pc_bne_back : pcAfter (exec (.bne 5 0 0xFFE) (st [(5, 1)])) = some 0xfc := by decide
theorem test_pc_blt_signed : pcAfter (exec (.blt 5 6 6) (st [(5, 0xffffffff), (6, 0)])) = some 0x10c := by decide
theorem test_pc_bge_equal : pcAfter (exec (.bge 5 6 0xFFE) (st [(5, 7), (6, 7)])) = some 0xfc := by decide
theorem test_pc_bltu_unsigned : pcAfter (exec (.bltu 5 6 0xFFC) (st [(5, 0xffffffff), (6, 0)])) = some 0x104 := by decide
theorem test_pc_bgeu : pcAfter (exec (.bgeu 5 6 8) (st [(5, 0xffffffff), (6, 0)])) = some 0x110 := by decide
theorem test_pc_jal : pcAfter (exec (.jal 1 128) (st [])) = some 0x200 := by decide
theorem test_pc_jalr_clears_bit0 : pcAfter (exec (.jalr 1 5 3) (st [(5, 0x200)])) = some 0x202 := by decide
theorem test_pc_cJ : pcAfter (exec (.cJ 0x7FE) (st [])) = some 0xfc := by decide
theorem test_pc_cJal : pcAfter (exec (.cJal 16) (st [])) = some 0x120 := by decide
theorem test_pc_cJr : pcAfter (exec (.cJr 1) (st [(1, 0x125)])) = some 0x124 := by decide
theorem test_pc_cJalr_old_ra : pcAfter (exec (.cJalr 1) (st [(1, 0x201)])) = some 0x200 := by decide
theorem test_pc_cBeqz : pcAfter (exec (.cBeqz 0 4) (st [])) = some 0x108 := by decide
theorem test_pc_cBnez : pcAfter (exec (.cBnez 1 0xFD) (st [(9, 1)])) = some 0xfa := by decide
theorem test_pc_cNop : pcAfter (exec .cNop (st [])) = some 0x102 := by decide
theorem test_pc_fence : pcAfter (exec (.fence 15 15) (st [])) = some 0x104 := by decide

/-! ## Loads and stores (spec/40 R215 to R222, spec/43, spec/44) -/

theorem test_lb : regAfter (exec (.lb 5 6 0xFFF) (withWords (st [(6, 0x201)]) [(0x200, 0x80)])) 5 = some 0xFFFFFF80 := by decide
theorem test_lbu : regAfter (exec (.lbu 5 6 3) (withWords (st [(6, 0x200)]) [(0x200, 0x80000000)])) 5 = some 0x80 := by decide
theorem test_lh : regAfter (exec (.lh 5 6 2) (withWords (st [(6, 0x200)]) [(0x200, 0x92340000)])) 5 = some 0xFFFF9234 := by decide
theorem test_lhu : regAfter (exec (.lhu 5 6 2) (withWords (st [(6, 0x200)]) [(0x200, 0x92340000)])) 5 = some 0x9234 := by decide
theorem test_lw : regAfter (exec (.lw 5 2 8) (withWords (st [(2, 0x200)]) [(0x208, 0x11223344)])) 5 = some 0x11223344 := by decide
theorem test_lw_drops_high_bits :
    regAfter (exec (.lw 5 2 0) (withWords (st [(2, 0x20000200)]) [(0x200, 0x11223344)])) 5 = some 0x11223344 := by decide
theorem test_sb : wordAfter (exec (.sb 5 6 1) (st [(5, 0xABCD), (6, 0x200)])) 0x200 = some 0xCD00 := by decide
theorem test_sh : wordAfter (exec (.sh 5 6 0xFFE) (st [(5, 0x1ABCD), (6, 0x204)])) 0x200 = some 0xABCD0000 := by decide
theorem test_sw : wordAfter (exec (.sw 5 2 12) (st [(5, 0x11223344), (2, 0x200)])) 0x20C = some 0x11223344 := by decide
theorem test_cLw : regAfter (exec (.cLw 1 2 1) (withWords (st [(10, 0x200)]) [(0x204, 0xCAFE)])) 9 = some 0xCAFE := by decide
theorem test_cLwsp : regAfter (exec (.cLwsp 1 3) (withWords (st [(2, 0x200)]) [(0x20C, 0xCAFE)])) 1 = some 0xCAFE := by decide
theorem test_cSw : wordAfter (exec (.cSw 1 2 1) (st [(9, 0xBEEF), (10, 0x200)])) 0x204 = some 0xBEEF := by decide
theorem test_cSwsp : wordAfter (exec (.cSwsp 1 3) (st [(1, 0xBEEF), (2, 0x200)])) 0x20C = some 0xBEEF := by decide
theorem test_cLbu : regAfter (exec (.cLbu 0 1 3) (withWords (st [(9, 0x200)]) [(0x200, 0x80000000)])) 8 = some 0x80 := by decide
theorem test_cLhu : regAfter (exec (.cLhu 0 1 1) (withWords (st [(9, 0x200)]) [(0x200, 0x92340000)])) 8 = some 0x9234 := by decide
theorem test_cLh : regAfter (exec (.cLh 0 1 1) (withWords (st [(9, 0x200)]) [(0x200, 0x92340000)])) 8 = some 0xFFFF9234 := by decide
theorem test_cSb : wordAfter (exec (.cSb 0 1 1) (st [(8, 0xABCD), (9, 0x200)])) 0x200 = some 0xCD00 := by decide
theorem test_cSh : wordAfter (exec (.cSh 0 1 1) (st [(8, 0x1ABCD), (9, 0x200)])) 0x200 = some 0xABCD0000 := by decide

/-! ## System instructions (spec/40 R238 to R250, spec/10, spec/60) -/

theorem test_csrrw_old_value : regAfter (exec (.csrrw 5 6 0x300) (st [(6, 8)])) 5 = some 0x1800 := by decide
theorem test_csrrw_new_value : csrAfter (exec (.csrrw 5 6 0x305) (st [(6, 0xFFFFFFFF)])) .mtvec = some 0xFFFFFFC3 := by decide
theorem test_csrrs : csrAfter (exec (.csrrs 0 6 0x300) (st [(6, 8)])) .mstatus = some 0x1808 := by decide
theorem test_csrrc : csrAfter (exec (.csrrc 0 6 0x340) (after (st []) (exec (.csrrw 0 5 0x340) (st [(5, 0xFF), (6, 0x0F)])))) .mscratch
    = some 0xF0 := by decide
theorem test_csrrwi : csrAfter (exec (.csrrwi 0 5 0x340) (st [])) .mscratch = some 5 := by decide
theorem test_csrrsi : csrAfter (exec (.csrrsi 0 8 0x300) (st [])) .mstatus = some 0x1808 := by decide
theorem test_csrrci : csrAfter (exec (.csrrci 0 8 0x300) (after (st []) (exec (.csrrsi 0 8 0x300) (st [])))) .mstatus
    = some 0x1800 := by decide
theorem test_mscratchcswl_swaps : regAfter (exec (.csrrw 2 2 0x349) (after (st []) (exec (.csrrw 0 5 0x340) (st [(5, 0x700), (2, 0x400)])))) 2
    = some 0x700 := by decide
theorem test_ecall_mepc : csrAfter (exec .ecall (st [])) .mepc = some 0x100 := by decide
theorem test_ecall_mcause : csrAfter (exec .ecall (st [])) .mcause = some 0x3000000B := by decide
theorem test_ebreak : csrAfter (exec .ebreak (st [])) .mcause = some 0x30000003 := by decide
theorem test_cEbreak : csrAfter (exec .cEbreak (st [])) .mepc = some 0x100 := by decide
theorem test_mret : pcAfter (exec .mret (after (st []) (exec .ecall (st [])))) = some 0x100 := by decide
theorem test_mret_mstatus : csrAfter (exec .mret (st [])) .mstatus = some 0x1880 := by decide
theorem test_wfi_sleeps : (after (st []) (exec .wfi (st []))).sleeping = true := by decide
theorem test_fenceI : (after (st []) (exec .fenceI { st [] with stale := [4] })).stale = [] := by decide
theorem test_misaligned_load : csrAfter (exec (.lw 5 6 0) (st [(6, 0x202)])) .mcause = some 0x30000004 := by decide
theorem test_misaligned_store : csrAfter (exec (.sh 5 6 0) (st [(6, 0x203)])) .mcause = some 0x30000006 := by decide

/-! ## Zcmp, Zcmt, coprocessor instructions (spec/44, spec/45) -/

theorem test_cmPush : wordAfter (exec (.cmPush .raS0S1 1) (st [(2, 0x1000), (1, 0x11), (8, 0x88), (9, 0x99)])) 0xFFC = some 0x99 := by decide
theorem test_cmPush_sp : regAfter (exec (.cmPush .raS0S1 1) (st [(2, 0x1000)])) 2 = some 0xFE0 := by decide
theorem test_cmPop : regAfter (exec (.cmPop .raS0 0) (withWords (st [(2, 0xFF0)]) [(0xFF8, 0x11), (0xFFC, 0x88)])) 1 = some 0x11 := by decide
theorem test_cmPop_sp : regAfter (exec (.cmPop .raS0 0) (st [(2, 0xFF0)])) 2 = some 0x1000 := by decide
theorem test_cmPopret : pcAfter (exec (.cmPopret .ra 0) (withWords (st [(2, 0xFF0)]) [(0xFFC, 0x124)])) = some 0x124 := by decide
theorem test_cmPopretz : regAfter (exec (.cmPopretz .raS0S1 0) (st [(2, 0xFF0), (10, 7)])) 10 = some 0 := by decide
theorem test_cmJt : pcAfter (exec (.cmJt 3) (withWords { st [] with csr := { State.reset.csr with jvtBase := 0x10 } } [(0x40C, 0x801)]))
    = some 0x800 := by decide
theorem test_cmJalt : regAfter (exec (.cmJalt 32) (withWords { st [] with csr := { State.reset.csr with jvtBase := 0x10 } } [(0x480, 0x900)])) 1
    = some 0x102 := by decide

/-- The machine with coprocessor instructions enabled. -/
def stCop (l : List (Reg × Word)) : State := { st l with csr := { State.reset.csr with copEn := true } }

theorem test_cpx_illegal_when_disabled : csrAfter (exec (.cpx1 0 6) (st [])) .mcause = some 0x30000002 := by decide
theorem test_cpx0 : ((after (st []) (exec (.cpx0 1 6 0x155) (stCop [(6, 9)]))).cop.map CopReq.word) = [0x40A30ADB] := by decide
theorem test_cpx1 : pcAfter (exec (.cpx1 0 6) (stCop [])) = some 0x104 := by decide
theorem test_cpx4 : ((after (st []) (exec (.cpx4 0 6 7 31) (stCop [(6, 1), (7, 2)]))).cop.map CopReq.srcs) = [[1, 2]] := by decide
theorem test_cpx5 : ((after (st []) (exec (.cpx5 1 6 7) (stCop [(6, 1), (7, 2)]))).cop.map CopReq.word) = [0x4673005B] := by decide
theorem test_cpx2 : regAfter (exec (.cpx2 2 0 6 7) (stCop [])) 0 = some 0 := by decide
theorem test_cpx3 : pcAfter (exec (.cpx3 3 5 6) (stCop [])) = some 0x104 := by decide
theorem test_cpx6 : ((after (st []) (exec (.cpx6 0 5 6 7) (stCop [(6, 1), (7, 2)]))).cop.map CopReq.index) = [0] := by decide
theorem test_cpx9_sends_rd : ((after (st []) (exec (.cpx9 0 5 6 0x3FF) (stCop [(5, 3), (6, 1)]))).cop.map CopReq.srcs) = [[1, 3]] := by decide

/-! ## Whole steps -/

/-- A step runs the word placed at the pc. -/
theorem test_step_runs_the_placed_word : regAfter (step ((st [(6, 0xFFFFFFFF), (7, 2)]).withFetchWord 32 0x007302B3)) 5 = some 1 := by decide
theorem test_step_runs_a_parcel : pcAfter (step (State.reset.withFetchWord 16 0xA001)) = some 0 := by decide

/-- The all-zero parcel, which empty memory holds, is illegal (R164). -/
theorem test_step_on_empty_memory : csrAfter (step State.reset) .mcause = some 0x30000002 := by decide

/-- A quiet input record. -/
def quietInput : StepInput :=
  { cycles := 1, sysCnt := 0, lines := 0, event := false, busErrors := [], reset := none, request := none, command := none }

/-- Interrupt 16 configured as example 12.1 does, its line raised: vectored entry (R422, R424, R451). -/
def irqState : State :=
  withWords
    { st [] with
      csr := { State.reset.csr with mie := true, mtvtBase := 0x10 }
      clic :=
        { State.reset.clic with
          sources := State.reset.clic.sources.set 16 { latch := false, ie := true, edge := false, falling := false, shv := true } }
      inputs := [{ quietInput with lines := 1 }] }
    [(0x440, 0x800)]

theorem test_interrupt_pc : pcAfter (step irqState) = some 0x800 := by decide
theorem test_interrupt_mcause : csrAfter (step irqState) .mcause = some 0xB8000010 := by decide

/-- A bus that answers stores to 0x200 with ERROR in this step (R108), and the step that stores there. -/
theorem test_bus_error_input : csrAfter (step { (st [(5, 1), (6, 0x200)]).withFetchWord 32 0x00532023 with
    inputs := [{ quietInput with busErrors := [{ kind := .store, base := 0x200, size := 4 }] }] }) .mcause = some 0x30000007 := by decide

/-- A halted hart given this command. -/
def halted (c : DebugCommand) : State :=
  { st [(6, 7)] with
    dbg := { State.reset.dbg with debugMode := true }
    inputs := [{ quietInput with command := some c }]
    stale := [0x100] }

/-- FENCE.I and ADDI x5, x6, -1 through the program buffer; the pc stays (R465, R466, R470). -/
theorem test_progbuf_fenceI : (after (st []) (step (halted (.progbuf 0x0000100F 0x00100073)))).stale = [] := by decide
theorem test_progbuf_addi : regAfter (step (halted (.progbuf 0xFFF30293 0x0000100F))) 5 = some 6 ∧
    pcAfter (step (halted (.progbuf 0xFFF30293 0x0000100F))) = some 0x100 := by decide
/-- EBREAK ends the buffer before its second word (R465). -/
theorem test_progbuf_ebreak_ends : regAfter (step (halted (.progbuf 0x00100073 0xFFF30293))) 5 = some 0 := by decide
/-- The debugger's word write reaches msip (R441, R470). -/
theorem test_debugger_writes_msip : (after (st []) (step (halted (.writeMem .word 0xE0000000 1)))).clic.msip = true := by decide
/-- An asynchronous request halts the running hart before its next instruction (R466, R471). -/
theorem test_async_request_halts : csrAfter (step { st [] with inputs := [{ quietInput with request := some .async }] }) .dpc = some 0x100 ∧
    csrAfter (step { st [] with inputs := [{ quietInput with request := some .async }] }) .mhaltcause = some 8 := by decide
/-- A reset of the core keeps memory; the pc is RESET_ADDR (R480, R482). -/
theorem test_platform_reset : wordAfter (step { withWords (st []) [(0x440, 0x800)] with inputs := [{ quietInput with reset := some .core }] }) 0x440
    = some 0x800 ∧ pcAfter (step { st [] with inputs := [{ quietInput with reset := some .core }] }) = some 0 := by decide

/-! ## The hypotheses of the statements are met -/

/-- A build without the options: no multiplier, B, coprocessors, debug or counters, and fixed vector bases. -/
def bareConfig : Config :=
  { Config.default with
    mul := .none, hasB := false, hasCop := false, debugRes := .none, triggers := [], hasCounters := false, vecFixed := true }

/-- The bare build after reset. -/
def bare : State := State.resetWith bareConfig

/-- A build with an instruction-bus region at 0x1000 to 0x11FF, an error region at 0x2000 and a device at 0x3000. -/
def mappedConfig : Config :=
  { Config.default with
    hasIbus := true, ibusBase := 8, ibusMask := 0xFFF
    platform :=
      [{ base := 0x2000, size := 0x1000, fetch := .error, load := .error, store := .error },
        { base := 0x3000, size := 0x1000, fetch := .device, load := .device, store := .device }] }

/-- That build after reset with a register set. -/
def mapped (r : Reg) (v : Word) : State := (State.resetWith mappedConfig).setX r v

/-- A device answers and records: a store leaves its address, width and low byte; a load leaves a query (R102, R116). -/
theorem test_device_store : (after (st []) (exec (.sb 5 6 0) ((mapped 6 0x3FFF).setX 5 0x1234))).devices
    = [{ kind := .store, addr := 0x3FFF, bytes := 1, data := 0x34 }] := by decide
theorem test_device_load : (after (st []) (exec (.lw 5 6 0) (mapped 6 0x3000))).devices
    = [{ kind := .load, addr := 0x3000, bytes := 4, data := 0 }] := by decide

/-- A store to a device marks its location, and a fetch from there stops until FENCE.I (R122); where the bus answers ERROR
the fetch raises exception 1, stored to or not (notes/assumptions/30.md). -/
theorem test_device_store_is_stale :
    fetchMain (after (st []) (exec (.sb 5 6 0) (mapped 6 0x3FFF))) .half 0x3FFE = .fault .staleFetch := by decide
theorem test_error_before_stale : fetchMain { mapped 0 0 with stale := [0x2000] } .half 0x2000 = .exc 1 := by decide

/-- A build with IBUS_MASK = 0x000, the 2 MiB one R104 (c) forbids, does not run. -/
theorem test_illegal_build :
    step (State.resetWith { mappedConfig with ibusMask := 0, ibusBase := 0 }) = .refused .illegalBuild := rfl

theorem witness_DecodeOfEncode : Instr.wf (.cmJalt 32) = true ∧ Instr.wf (.cLui 1 0x3F) = true ∧ Instr.wf (.add 15 15 15) = true := by decide
theorem witness_EncodeOfDecode : decode (leBytes 4 0x007302B3) = .ok (.add 5 6 7) ∧ decode (leBytes 2 0x929A) = .ok (.cAdd 5 6) := by decide
theorem witness_HighRegisterFieldsAreIllegal : [24] ≠ [] ∧ [24].Sublist (highRegBits (.add 5 6 7)) ∧ [11, 6].Sublist (highRegBits (.cMv 5 6)) := by decide
theorem witness_MissingFeatureEncodingsAreIllegal :
    (0x2000 < 2 ^ 16 ∧ field 0x2000 0 2 = 0 ∧ field 0x2000 13 3 = 1) ∧ (field 0xE000 0 2 = 0 ∧ field 0xE000 13 3 = 7) ∧
      (field 0x2002 0 2 = 2 ∧ field 0x2002 13 3 = 1) ∧ (field 0xE002 0 2 = 2 ∧ field 0xE002 13 3 = 7) ∧
      (field 0x0000002F 0 2 = 3 ∧ field 0x0000002F 0 7 ∉ [0x33, 0x13, 0x03, 0x23, 0x63, 0x37, 0x17, 0x6F, 0x67, 0x73, 0x0F, 0x2B, 0x5B, 0x7B]) ∧
      (field 0x02004033 0 7 = 0x33 ∧ field 0x02004033 25 7 = 1 ∧ 4 ≤ field 0x02004033 12 3) ∧
      (field 0x02001013 0 7 = 0x13 ∧ field 0x02001013 12 3 = 1 ∧ field 0x02001013 25 7 = 1) ∧
      (field 0x02005013 0 7 = 0x13 ∧ field 0x02005013 12 3 = 5 ∧ field 0x02005013 25 7 = 1) ∧
      (field 0x42005013 12 3 = 5 ∧ field 0x42005013 25 7 = 33) ∧
      (field 0x10200073 0 7 = 0x73 ∧ field 0x10200073 12 3 = 0 ∧ 0x10200073 ∉ [0x00000073, 0x00100073, 0x30200073, 0x10500073]) ∧
      (field 0x00004073 0 7 = 0x73 ∧ field 0x00004073 12 3 = 4) ∧ (field 0x0000200F 0 7 = 0x0F ∧ 2 ≤ field 0x0000200F 12 3) ∧
      field 0x0000001F 0 5 = 31 ∧
      (field 0b1010110100100010 0 2 = 2 ∧ field 0b1010110100100010 10 6 = 0b101011 ∧ field 0b1010110100100010 5 2 = 1 ∧
        2 ≤ field 0b1010110100100010 7 3) ∧
      (field 0b1010110001101010 10 6 = 0b101011 ∧ field 0b1010110001101010 5 2 = 3 ∧ 2 ≤ field 0b1010110001101010 2 3) := by decide

/-- One word of each 32-bit format in the encoding clauses: R, the two-register form, I, shift, S, B, U, J. -/
theorem witness_wide_formats :
    (field 0x007302B3 0 7 = 0b0110011 ∧ field 0x007302B3 12 3 = 0 ∧ field 0x007302B3 25 7 = 0 ∧ field 0x007302B3 7 5 = 5 ∧
        field 0x007302B3 15 5 = 6 ∧ field 0x007302B3 20 5 = 7) ∧
      (field 0x60031293 20 12 = 0b011000000000 ∧ field 0x60031293 12 3 = 1 ∧ field 0x60031293 7 5 = 5) ∧
      (field 0xFFF30293 0 7 = 0b0010011 ∧ field 0xFFF30293 12 3 = 0 ∧ field 0xFFF30293 20 12 = (0xFFF : BitVec 12).toNat) ∧
      (field 0x40435293 25 7 = 0b0100000 ∧ field 0x40435293 12 3 = 5 ∧ field 0x40435293 20 5 = (4 : BitVec 5).toNat) ∧
      (field 0xFE062EE3 31 1 = field (0xFFE : BitVec 12).toNat 11 1 ∧ field 0xFE062EE3 7 1 = field (0xFFE : BitVec 12).toNat 10 1 ∧
        field 0xFE062EE3 25 6 = field (0xFFE : BitVec 12).toNat 4 6 ∧ field 0xFE062EE3 8 4 = field (0xFFE : BitVec 12).toNat 0 4) ∧
      (field 0xE08002B7 0 7 = 0b0110111 ∧ field 0xE08002B7 12 20 = (0xE0800 : BitVec 20).toNat) ∧
      (field 0x100000EF 0 7 = 0b1101111 ∧ field 0x100000EF 31 1 = field (128 : BitVec 20).toNat 19 1 ∧
        field 0x100000EF 12 8 = field (128 : BitVec 20).toNat 11 8 ∧ field 0x100000EF 20 1 = field (128 : BitVec 20).toNat 10 1 ∧
        field 0x100000EF 21 10 = field (128 : BitVec 20).toNat 0 10) ∧
      (field 0xFE732E23 0 7 = 0b0100011 ∧ field 0xFE732E23 12 3 = 2 ∧ field 0xFE732E23 15 5 = 6 ∧ field 0xFE732E23 20 5 = 7 ∧
        field 0xFE732E23 25 7 = field (0xFFC : BitVec 12).toNat 5 7 ∧ field 0xFE732E23 7 5 = field (0xFFC : BitVec 12).toNat 0 5) ∧
      (field 0x3402D073 0 7 = 0b1110011 ∧ field 0x3402D073 12 3 = 5 ∧ field 0x3402D073 7 5 = 0 ∧
        field 0x3402D073 15 5 = (5 : BitVec 5).toNat ∧ field 0x3402D073 20 12 = (0x340 : BitVec 12).toNat) := by decide

/-- One parcel of each compressed format in the encoding clauses: CI with each constraint, CA, CU. -/
theorem witness_narrow_formats :
    ((5 : Reg) ≠ 0 ∧ (5 : Reg) ≠ 2 ∧ (0x3F : BitVec 6) ≠ 0 ∧ field 0x12FD 0 2 = 1 ∧ field 0x12FD 13 3 = 0 ∧ field 0x12FD 7 5 = 5 ∧
        field 0x12FD 12 1 = field (0x3F : BitVec 6).toNat 5 1 ∧ field 0x12FD 2 5 = field (0x3F : BitVec 6).toNat 0 5) ∧
      (0 < (31 : BitVec 6).toNat ∧ (31 : BitVec 6).toNat < 32) ∧
      (field 0x8C05 0 2 = 1 ∧ field 0x8C05 10 6 = 0b100011 ∧ field 0x8C05 5 2 = 0 ∧ field 0x8C05 7 3 = 0 ∧ field 0x8C05 2 3 = 1) ∧
      (field 0x9C75 10 6 = 0b100111 ∧ field 0x9C75 5 2 = 0b11 ∧ field 0x9C75 2 3 = 0b101 ∧ field 0x9C75 7 3 = 0) := by decide

/-- C.ADD, C.ADDI4SPN with 8, C.ADDI16SP with 64 and C.SRAI by 31: the fields and the words (R156, R158). -/
theorem witness_narrow_formats_restored :
    ((5 : Reg) ≠ 0 ∧ (6 : Reg) ≠ 0 ∧ field 0x929A 0 2 = 2 ∧ field 0x929A 12 4 = 0b1001 ∧ field 0x929A 7 5 = 5 ∧ field 0x929A 2 5 = 6) ∧
      ((2 : BitVec 8) ≠ 0 ∧ field 0x0020 0 2 = 0 ∧ field 0x0020 2 3 = 0 ∧ field 0x0020 5 1 = field (2 : BitVec 8).toNat 1 1 ∧
        decodeTableWord 16 0x0020 = some (.cAddi4spn 0 2)) ∧
      ((4 : BitVec 6) ≠ 0 ∧ field 0x6121 13 3 = 0b011 ∧ field 0x6121 7 5 = 2 ∧ field 0x6121 5 1 = field (4 : BitVec 6).toNat 2 1 ∧
        decodeTableWord 16 0x6121 = some (.cAddi16sp 4)) ∧
      (0 < (31 : BitVec 6).toNat ∧ field 0x87FD 10 2 = 0b01 ∧ field 0x87FD 7 3 = 7 ∧ decodeTableWord 16 0x87FD = some (.cSrai 7 31)) := by
  decide
theorem witness_options_present : State.reset.cfg.mul ≠ .none ∧ State.reset.cfg.hasB = true := by decide
theorem witness_AbsentOptionsTrap :
    bare.cfg.mul = .none ∧ bare.cfg.hasB = false ∧ bare.cfg.hasCop = false ∧ State.reset.csr.copEn = false := by decide
/-- A build that defines every word of custom-1 as a coprocessor instruction, after reset. -/
def userCopState : State := State.resetWith { Config.default with userCop := [{ mask := 0x7F, value := 0x2B }] }
/-- R382, R385: a word the platform defines raises exception 2 with COPINSTEE = 0; one it does not define is refused. -/
theorem test_custom_defined : execReject userCopState (.custom 0x2B) = .next (raise userCopState 2) ∧
    execReject userCopState (.custom 0x7B) = .refused .customInstruction := ⟨rfl, rfl⟩
theorem witness_AbsentOptionsTrap_custom :
    CustomWord 0x0000002B ∧ CustomWord 0xFFFFFFFB ∧ CustomWord 0x0800005B ∧ CustomWord 0x0600105B ∧ CustomWord 0x0003205B ∧
      CustomWord 0x0000605B ∧ (State.reset.cfg.hasCop = true ∧ ∀ p ∈ State.reset.cfg.userCop, (0x2B : Word) &&& p.mask ≠ p.value) ∧
      userCopState.cfg.hasCop = true ∧ (∃ p ∈ userCopState.cfg.userCop, (0x2B : Word) &&& p.mask = p.value) ∧
      userCopState.csr.copEn = false := by
  refine ⟨?_, ?_, ?_, ?_, ?_, ?_, ?_, rfl, ⟨_, List.mem_singleton_self _, rfl⟩, rfl⟩
  · exact .inl rfl
  · exact .inr (.inl rfl)
  · exact .inr (.inr ⟨rfl, by decide⟩)
  · exact .inr (.inr ⟨rfl, by decide⟩)
  · exact .inr (.inr ⟨rfl, by decide⟩)
  · exact .inr (.inr ⟨rfl, by decide⟩)
  · exact ⟨rfl, nofun⟩
theorem witness_NopAndFences :
    response State.reset .fetch 0 = .memory ∧ (∀ b ∈ State.reset.stale, ¬ InBytes 0 4 b) ∧
      response (mapped 0 0) .fetch 0x3000 = .device ∧ response (mapped 0 0) .fetch 0x2000 = .error ∧
      ∃ b ∈ ({ State.reset with stale := [3] }).stale, InBytes 0 4 b :=
  ⟨rfl, nofun, by decide, by decide, 3, by decide, by decide, by decide⟩

/-- Loads: memory at its last word, above and below the TCIP window; each way not to complete. -/
theorem witness_LoadRule :
    LoadsFromMemory State.reset .word 0x1FFFFC ∧ LoadsFromMemory State.reset .byte 0xDFFFFFFF ∧
      LoadsFromMemory State.reset .half 0xF0000000 ∧ misaligned .word 0x202 = true ∧ misaligned .half 0x201 = true ∧
      (misaligned .word 0xE0000000 = false ∧ inTcip 0xE0000000 = true ∧ tcipRead State.reset .word 0xE0000000 = some 0) ∧
      (misaligned .byte 0xEFFFFFFF = false ∧ inTcip 0xEFFFFFFF = true ∧ tcipRead State.reset .byte 0xEFFFFFFF = none) ∧
      (misaligned .byte 0x11FF = false ∧ inTcip 0x11FF = false ∧ inIbus mappedConfig (mainAddr 0x11FF) = true) ∧
      (inIbus mappedConfig (mainAddr 0x2000) = false ∧ response (mapped 0 0) .load (mainAddr 0x2000) = .error) ∧
      LoadsFromDevice (mapped 0 0) .word 0x3000 ∧ LoadsFromDevice (mapped 0 0) .byte 0x3FFF := by
  simp only [LoadsFromMemory, LoadsFromDevice]; decide

/-- Stores: the same, and a TCIP store that is taken and one that is refused. -/
theorem witness_StoreRule :
    StoresToMemory State.reset .word 0x1FFFFC ∧ StoresToMemory State.reset .byte 0xDFFFFFFF ∧ Memory.wf State.reset.mem ∧
      misaligned .word 0x202 = true ∧ inTcip 0xE0000000 = true ∧
      (∃ t, tcipWrite State.reset .word 0xE0000000 1 = .ok t) ∧
      tcipWrite State.reset .half 0xE0000000 1 = .refused .tcipAccess ∧
      (misaligned .word 0x1000 = false ∧ inTcip 0x1000 = false ∧ inIbus mappedConfig (mainAddr 0x1000) = true) ∧
      response (mapped 0 0) .store (mainAddr 0x2FFF) = .error ∧ StoresToDevice (mapped 0 0) .byte 0x3FFF := by
  simp only [StoresToMemory, StoresToDevice]
  exact ⟨by decide, by decide, by decide, by decide, by decide, ⟨_, rfl⟩, rfl, by decide, by decide, by decide⟩

theorem witness_AlignmentAndAddressDecoding :
    inTcip 0x1FFFFF = false ∧ inTcip 0xFFFFFFFF = false ∧ (0x1FFFFF : Word).toNat % 2 ^ 21 = (0xFFFFFFFF : Word).toNat % 2 ^ 21 := by decide
theorem witness_MemoryIsLittleEndian :
    Memory.wf (st [(6, 0x1FFFFC)]).mem ∧ misaligned .word ((st [(6, 0x1FFFFC)]).x 6) = false ∧
      inTcip ((st [(6, 0x1FFFFC)]).x 6) = false ∧ (st [(6, 0x1FFFFC)]).cfg.platform = [] ∧
      (st [(6, 0x1FFFFC)]).pins.busErrors = [] ∧
      ∀ k < 4, inIbus (st [(6, 0x1FFFFC)]).cfg (mainAddr ((st [(6, 0x1FFFFC)]).x 6) + k) = false := by decide

/-- CSR writes that are carried out: one of each condition of Writable. -/
theorem witness_CsrWritesComplete :
    (csrOf 0x300 = some .mstatus ∧ Writable State.reset .mstatus) ∧ (csrOf 0x305 = some .mtvec ∧ Writable State.reset .mtvec) ∧
      (csrOf 0xB02 = some .minstret ∧ Writable State.reset .minstret) ∧ (csrOf 0x7A0 = some .tselect ∧ Writable State.reset .tselect) ∧
      (csrOf 0x7A1 = some .tdata1 ∧ Writable State.reset .tdata1) ∧
      (csrOf 0x7B1 = some .dpc ∧ Writable (halted .resume) .dpc) ∧ CsrName.tdata1 ≠ .mscratchcswl ∧ (6 : Reg) ≠ 0 ∧ (1 : BitVec 5) ≠ 0 :=
  ⟨⟨rfl, trivial⟩, ⟨rfl, rfl⟩, ⟨rfl, rfl⟩, ⟨rfl, rfl⟩, ⟨rfl, rfl, .inl rfl⟩, ⟨rfl, rfl⟩, by decide, by decide, by decide⟩
theorem witness_CsrPureReads :
    (csrOf 0xF11 = some .mvendorid ∧ Readable State.reset .mvendorid) ∧ (csrOf 0x306 = some .mcounteren ∧ Readable State.reset .mcounteren) ∧
      (csrOf 0x7A4 = some .tinfo ∧ Readable State.reset .tinfo) := ⟨⟨rfl, trivial⟩, ⟨rfl, rfl⟩, ⟨rfl, rfl⟩⟩
theorem witness_CsrFieldsAfterWrite :
    State.reset.cfg.vecFixed = false ∧ LowPc 0x1FFFFF ∧ (0x800000FF : Word).getLsbD 8 = false ∧
      (0x800000FF : Word).getLsbD 27 = State.reset.csr.mpie ∧ State.reset.dbg.triggers ≠ [] ∧
      (3 : Word).toNat < State.reset.dbg.triggers.length ∧ State.reset.dbg.tselect < State.reset.dbg.triggers.length ∧
      csrRead State.reset .tinfo = 0x0004 ∧
      csrRead ({ State.reset with dbg := { State.reset.dbg with tselect := 3 } }) .tinfo = 0x0038 ∧
      (0x5FFFFFFF : Word).toNat / 2 ^ 28 = 5 ∧ State.reset.cfg.wf = true ∧
      twoAt 2 State.reset.cfg.mexstatus.softRst ≠ 3 := by
  simp only [LowPc]; decide
theorem witness_IdentificationRegisters : (0xF11 : BitVec 12) ∈ [(0xF11 : BitVec 12), 0xF12, 0xF13, 0xF14] ∧ (6 : Reg) ≠ 0 ∧ (1 : BitVec 5) ≠ 0 := by decide
theorem witness_CsrAccessOutcomes :
    bare.cfg.vecFixed = true ∧ bare.cfg.hasCounters = false ∧ csrOf 0x000 = none ∧ State.reset.dbg.debugMode = false ∧
      State.reset.hasDebug = true ∧ Instr.csrrci 5 31 0x305 ∈ writingForms 5 0 31 0x305 ∧
      Instr.csrrs 5 15 0x305 ∈ writingForms 5 15 0 0x305 ∧ Readable State.reset .mip ∧ Readable State.reset .mcounteren ∧
      Readable State.reset .tinfo := by
  refine ⟨by decide, by decide, by decide, by decide, by decide, by decide, by decide, trivial, ?_, ?_⟩ <;> simp only [Readable] <;> decide
theorem witness_MscratchcswlSwaps : Instr.csrrwi 5 1 0x349 ∈ [Instr.csrrs 5 6 0x349, .csrrc 5 6 0x349, .csrrwi 5 1 0x349, .csrrsi 5 1 0x349, .csrrci 5 1 0x349] := by decide
theorem witness_CsrInstructionsKeepTrapAndDebugState :
    (st [(6, 8)]).dbg.debugMode = false ∧ ∃ t, exec (.csrrw 5 6 0x300) (st [(6, 8)]) = .next t := ⟨rfl, _, rfl⟩
theorem witness_ExceptionEntry :
    (st []).csr.exptVld = false ∧ (st []).pc.getLsbD 0 = false ∧ normPc (st []).pc = (st []).pc ∧ (st []).hasDebug = true ∧ bare.hasDebug = false ∧
      (24 : Nat) < 2 ^ 8 := by decide

/-- A hart in a handler, a locked-up one, and a locked-up one in debug mode that is told to resume. -/
def inHandler : State := { st [] with csr := { State.reset.csr with exptVld := true } }
def lockedUp : State :=
  { st [] with
    csr := { State.reset.csr with exptVld := true, lockup := true }
    inputs := [quietInput] }
def resuming (a : Word) : State :=
  { st [] with
    csr := { State.reset.csr with exptVld := true, lockup := true }
    dbg := { State.reset.dbg with debugMode := true, dpc := a }
    inputs := [{ quietInput with command := some .resume }] }

theorem witness_LockupIsStuck :
    inHandler.csr.exptVld = true ∧
      (Undisturbed lockedUp ∧ lockedUp.csr.lockup = true ∧ lockedUp.dbg.debugMode = false ∧ (nextInput lockedUp).request = none) ∧
      (Halted (resuming 0x1FFFFC) ∧ (resuming 0x1FFFFC).csr.lockup = true ∧
        (nextInput (resuming 0x1FFFFC)).command = some .resume ∧ LowPc (resuming 0x1FFFFC).dbg.dpc ∧
        (resuming 0x1FFFFC).dbg.dpc.getLsbD 0 = false ∧ (resuming 0x1FFFFC).dbg.dpc = 0x1FFFFC) ∧
      (LowPc (resuming 0x1FFFFE).dbg.dpc ∧ (resuming 0x1FFFFE).dbg.dpc ≠ 0x1FFFFC) := by
  simp only [LowPc, Undisturbed, Halted]; decide
theorem witness_EcallIsAlwaysTakenAndReturns :
    (inHandler.pc.getLsbD 0 = false ∧ normPc inHandler.pc = inHandler.pc) ∧ inHandler.hasDebug = true := by decide
theorem witness_BreakpointInstructions :
    (({ st [] with dbg := { State.reset.dbg with ebreakm := true } }).hasDebug = true ∧
        ({ st [] with dbg := { State.reset.dbg with ebreakm := true } }).dbg.ebreakm = true) ∧
      (st []).dbg.ebreakm = false ∧ bare.hasDebug = false ∧ Instr.cEbreak ∈ [Instr.ebreak, .cEbreak] := by decide
theorem witness_TrapReturn :
    normPc ({ st [] with csr := { State.reset.csr with mepc := 0x1FFFFE } }).csr.mepc = 0x1FFFFE ∧ (st []).hasDebug = true ∧ bare.hasDebug = false := by decide

/-- A sleeping hart with quiet inputs. -/
def asleep : State := { lockedUp with csr := State.reset.csr, sleeping := true }

/-- A sleeping hart woken by the external event, and one woken by interrupt 16 with MIE = 0. -/
def wokenByEvent : State :=
  { asleep.withFetchWord 32 0x007302B3 with
    csr := { State.reset.csr with mie := true }
    inputs := [{ quietInput with event := true }] }
def wokenMasked : State := { irqState.withFetchWord 32 0x007302B3 with csr := State.reset.csr, sleeping := true }

theorem witness_WfiSleepsUntilWoken :
    Running asleep ∧ asleep.sleeping = true ∧ wakes (sample asleep (nextInput asleep)) = false := by
  simp only [Running, Undisturbed]; decide
theorem witness_WfiSleepsUntilWoken_woken :
    ∀ s ∈ [wokenByEvent, wokenMasked], Unhindered s ∧ s.sleeping = true ∧ wakes (sample s (nextInput s)) = true ∧
      CanFetch { sample s (nextInput s) with sleeping := false } ∧ decode (fetchBytes s) = .ok (.add 5 6 7) := by
  simp only [Unhindered, NoInterrupt, SteppingMasked, Running, Undisturbed, CanFetch, WideAtPc, ParcelFetchable]; decide
/-- A hart woken by a masked interrupt goes on with the instruction at its pc (R462). -/
theorem test_wake_masked : pcAfter (step wokenMasked) = some 0x104 := by decide

/-- irqState with interrupt 16 not vectored; inside an interrupt handler. -/
def plainIrq : State :=
  { irqState with
    clic :=
      { State.reset.clic with
        sources := State.reset.clic.sources.set 16 { latch := false, ie := true, edge := false, falling := false, shv := false } } }
def nestedIrq : State := { plainIrq with trapStack := [.irq] }

/-- A single step that lets interrupts in, and one that does not. -/
def withStep (s : State) (stepie : Bool) : State := { s with dbg := { State.reset.dbg with step := true, stepie := stepie } }

/-- A single step with STEPIE = 0 takes no interrupt (R430). -/
theorem test_step_masks_interrupt :
    pcAfter (step (withStep (plainIrq.withFetchWord 32 0x007302B3) false)) = some 0x104 := by decide
theorem witness_NonVectoredInterruptEntry_masked :
    Running (withStep nestedIrq false) ∧ SteppingMasked (withStep nestedIrq false) ∧
      (withStep nestedIrq false).dbg.triggers.any (armed (withStep nestedIrq false)) = false ∧
      (withStep nestedIrq false).sleeping = false ∧ TakesInterrupts (withStep plainIrq true) ∧
      TakesInterrupts (withStep irqState true) ∧ TakesInterrupts (withStep nestedIrq true) := by
  simp only [Running, Undisturbed, SteppingMasked, TakesInterrupts]; decide

theorem witness_NonVectoredInterruptEntry :
    Running plainIrq ∧ TakesInterrupts plainIrq ∧ plainIrq.trapStack.contains .irq = false ∧ plainIrq.pc.getLsbD 0 = false ∧
      normPc plainIrq.pc = plainIrq.pc ∧ winner (sample plainIrq (nextInput plainIrq)) = some 16 ∧
      (sourceOf (sample plainIrq (nextInput plainIrq)) 16).shv = false := by
  simp only [Running, Undisturbed, TakesInterrupts]; decide
theorem witness_VectoredInterruptEntry :
    Running irqState ∧ TakesInterrupts irqState ∧ irqState.trapStack.contains .irq = false ∧ irqState.pc.getLsbD 0 = false ∧
      normPc irqState.pc = irqState.pc ∧ winner (sample irqState (nextInput irqState)) = some 16 ∧
      (sourceOf (sample irqState (nextInput irqState)) 16).shv = true ∧ inTcip (vectorAddr irqState 16) = false ∧
      response (sample irqState (nextInput irqState)) .load (mainAddr (vectorAddr irqState 16)) = .memory ∧
      isStale irqState.stale (mainAddr (vectorAddr irqState 16)) 4 = false ∧
      (0x800 : Word) = BitVec.ofNat 32 (leValue irqState.mem (mainAddr (vectorAddr irqState 16)) 4) ∧
      (0x800 : Word).getLsbD 0 = false ∧ (0x801 : Word).getLsbD 0 = true := by
  simp only [Running, Undisturbed, TakesInterrupts]; decide
theorem witness_NestedInterruptFaults :
    Running nestedIrq ∧ TakesInterrupts nestedIrq ∧ nestedIrq.trapStack.contains .irq = true ∧
      winner (sample nestedIrq (nextInput nestedIrq)) ≠ none := by
  simp only [Running, Undisturbed, TakesInterrupts]; decide
theorem witness_ClintAndClicStores :
    ((st [(5, 0xE0000000)]).x 5 = 0xE0000000 ∧ (sourceOf (st [(5, 0xE0000000)]) 3).edge = false) ∧
      ((st [(5, 0xE0004000)]).x 5 = 0xE0004000 ∧ (sourceOf (st [(5, 0xE0004000)]) 7).edge = false ∧
        (st [(5, 0xE0004000)]).cfg.hasCounters = true) ∧ (st [(5, 0xE000BFF8)]).x 5 = 0xE000BFF8 ∧
      ((st [(5, 0xE0801040), (6, 0x7F010100)]).x 5 = 0xE0801040 ∧ (st [(5, 0xE0801040), (6, 0x7F010100)]).x 6 = 0x7F010100 ∧
        1 ≤ (st [(5, 0xE0801040), (6, 0x7F010100)]).cfg.extIntNum) := by decide

/-- The byte registers of a level source, of the edge source 127, and of source 3, which cannot be an edge source. -/
theorem witness_ClicByteRegisters :
    (hasSource State.reset.cfg 16 = true ∧ ClicSource.legal 16 (sourceOf State.reset 16) ∧
        (st [(5, 0xE0801040)]).x 5 = BitVec.ofNat 32 (0xE0801000 + 4 * 16) ∧ isPending State.reset 16 = false ∧
        lineOf State.reset 16 = false) ∧
      (hasSource State.reset.cfg 127 = true ∧
        ClicSource.legal 127 { latch := true, ie := false, edge := true, falling := true, shv := false } ∧
        (st [(5, 0xE08011FF)]).x 5 = BitVec.ofNat 32 (0xE0801003 + 4 * 127)) ∧
      hasSource State.reset.cfg 3 = true ∧ ClicSource.legal 3 (sourceOf State.reset 3) ∧
      (st [(5, 0xE080100D)]).x 5 = BitVec.ofNat 32 (0xE0801001 + 4 * 3) ∧
      (st [(5, 0xE080100E)]).x 5 = BitVec.ofNat 32 (0xE0801002 + 4 * 3) := by
  simp only [ClicSource.legal]; decide

/-- Push and pop: a stack that wraps from address 0 to the end of memory, and one whose second slot is a device's. -/
theorem witness_PushResults :
    (Memory.wf (st [(2, 8)]).mem ∧
      ∀ k < (listRegs .raS0S1).length, StoresToBus (st [(2, 8)]) .word (stackSlot ((st [(2, 8)]).x spReg) k)) ∧
      Memory.wf (mapped 2 0x4004).mem ∧
      ∀ k < (listRegs .raS0S1).length, StoresToBus (mapped 2 0x4004) .word (stackSlot ((mapped 2 0x4004).x spReg) k) := by
  simp only [StoresToBus, StoresToMemory, StoresToDevice]; decide
theorem witness_PopResults :
    ((0x1000 : Word) = (st [(2, 0xFC0)]).x spReg + BitVec.ofNat 32 (16 + 16 * (3 : BitVec 2).toNat) ∧
      ∀ k < (listRegs .raS0S1).length, LoadsFromBus (st [(2, 0xFC0)]) .word (stackSlot 0x1000 k)) ∧
      (0x4004 : Word) = (mapped 2 0x3FC4).x spReg + BitVec.ofNat 32 (16 + 16 * (3 : BitVec 2).toNat) ∧
      ∀ k < (listRegs .raS0S1).length, LoadsFromBus (mapped 2 0x3FC4) .word (stackSlot 0x4004 k) := by
  simp only [LoadsFromBus, LoadsFromMemory, LoadsFromDevice]; decide
theorem witness_PushThenPopRestores :
    ∀ k < (listRegs .raS0S1).length, StoresToMemory (st [(2, 8)]) .word (stackSlot ((st [(2, 8)]).x spReg) k) ∧
      LoadsFromMemory (st [(2, 8)]) .word (stackSlot ((st [(2, 8)]).x spReg) k) := by
  simp only [StoresToMemory, LoadsFromMemory]; decide

/-- The ways a stack access does not complete, the second slot being the first one past a good one: misaligned, TCIP,
instruction bus, error, for CM.PUSH and for a pop; the error lies past memory and past a device. -/
theorem witness_StackFaultsKeepSp :
    misaligned .word ((st [(2, 0x1001)]).x spReg) = true ∧
      (misaligned .word ((st [(2, 0xF0000000)]).x spReg) = false ∧ inTcip (stackSlot ((st [(2, 0xF0000000)]).x spReg) 0) = true) ∧
      (inTcip (stackSlot ((mapped 2 0x1204).x spReg) 1) = false ∧ StoresToBus (mapped 2 0x1204) .word (stackSlot 0x1204 0) ∧
        inIbus mappedConfig (mainAddr (stackSlot 0x1204 1)) = true) ∧
      (StoresToBus (mapped 2 0x3004) .word (stackSlot 0x3004 0) ∧ inIbus mappedConfig (mainAddr (stackSlot 0x3004 1)) = false ∧
        response (mapped 2 0x3004) .store (mainAddr (stackSlot 0x3004 1)) = .error) ∧
      ((0x1204 : Word) = (mapped 2 0x11F4).x spReg + BitVec.ofNat 32 (16 + 16 * (0 : BitVec 2).toNat) ∧
        LoadsFromBus (mapped 2 0x11F4) .word (stackSlot 0x1204 0) ∧ inIbus mappedConfig (mainAddr (stackSlot 0x1204 1)) = true) ∧
      (LoadsFromBus (mapped 2 0x2FF4) .word (stackSlot 0x3004 0) ∧ inIbus mappedConfig (mainAddr (stackSlot 0x3004 1)) = false ∧
        response (mapped 2 0x2FF4) .load (mainAddr (stackSlot 0x3004 1)) = .error) ∧
      Instr.cmPopretz .ra 0 ∈ [Instr.cmPop .ra 0, .cmPopret .ra 0, .cmPopretz .ra 0] := by
  simp only [StoresToBus, LoadsFromBus, StoresToMemory, LoadsFromMemory, StoresToDevice, LoadsFromDevice]; decide
theorem witness_DoubleMoveResults : SReg.s0 ≠ .s1 := by decide

/-- A jump table in memory, past an error, on a device, stored to, and in the TCIP window. -/
theorem witness_TableJumpResults :
    (0x40C : Word) = (csrRead { st [] with csr := { State.reset.csr with jvtBase := 0x10 } } .jvt &&& 0xFFFFFFC0) + BitVec.ofNat 32 (4 * (3 : BitVec 5).toNat) ∧
      TableReadable (st []) 0x40C ∧ (inTcip 0x2000 = false ∧ response (mapped 0 0) .fetch (mainAddr 0x2000) = .error) ∧
      (inTcip 0x3000 = false ∧ response (mapped 0 0) .fetch (mainAddr 0x3000) = .device ∧
        isStale (mapped 0 0).stale (mainAddr 0x3000) 4 = false ∧ isStale [0x3003] (mainAddr 0x3000) 4 = true) ∧
      isStale [0x40F] (mainAddr 0x40C) 4 = true ∧ inTcip 0xE0000000 = true := by
  simp only [TableReadable]; decide
theorem witness_CoprocessorRequests : (stCop []).cfg.hasCop = true ∧ (stCop []).csr.copEn = true := by decide

/-- A quiet state with a 32-bit instruction at the pc, and one with bytes that are none. -/
def quiet (w : Nat) : State := { lockedUp with csr := State.reset.csr }.withFetchWord 32 w

/-- That state with the bus answering fetches at `a` with ERROR in this step. -/
def quietError (a : Nat) : State :=
  { quiet 0x007302B3 with inputs := [{ quietInput with busErrors := [{ kind := .fetch, base := a, size := 2 }] }] }

/-- What a step of `s` sees once its inputs are sampled. -/
def sampled (s : State) : State := sample s (nextInput s)

/-- An instruction, no instruction, and an ERROR at the first and at the second parcel. -/
theorem witness_StepRunsTheDecodedInstruction :
    Quiet (quiet 0x007302B3) ∧ CanFetch (sampled (quiet 0x007302B3)) ∧
      decode (fetchBytes (quiet 0x007302B3)) = .ok (.add 5 6 7) ∧
      Quiet (quiet 0) ∧ CanFetch (sampled (quiet 0)) ∧ decode (fetchBytes (quiet 0)) = .error .illegal ∧
      Quiet (quietError 0x100) ∧ FetchError (sampled (quietError 0x100)) ∧ Quiet (quietError 0x102) ∧
      FetchError (sampled (quietError 0x102)) := by
  simp only [Quiet, Unhindered, NoInterrupt, SteppingMasked, Running, Undisturbed, CanFetch, FetchError, WideAtPc, ParcelFetchable]
  refine ⟨?_, ?_, ?_, ?_, ?_, ?_, ?_, ?_, ?_, ?_⟩ <;> decide
/-- The same with MIE = 1 and no source active. -/
theorem witness_StepRunsTheDecodedInstruction_mie :
    let s : State := { quiet 0x007302B3 with csr := { State.reset.csr with mie := true } }
    s.csr.mie = true ∧ Quiet s ∧ CanFetch (sampled s) ∧ decode (fetchBytes s) = .ok (.add 5 6 7) := by
  simp only [Quiet, Unhindered, NoInterrupt, SteppingMasked, Running, Undisturbed, CanFetch, WideAtPc, ParcelFetchable]; decide
/-- A bus error that comes with the step raises exception 1 at the fetch (R108, R110, R495). -/
theorem test_fetch_bus_error : csrAfter (step (quietError 0x102)) .mcause = some 0x30000001 := by decide
theorem witness_EveryStepKeepsTheInvariant : Inv (st []) ∧ ∃ t, step (st []) = .next t := by
  refine ⟨⟨by decide, by decide, by decide, by decide, by decide, by decide, ?_, ?_, by decide⟩, _, rfl⟩
  · intro i
    simp [ClicSource.legal, st, State.reset, State.resetWith, resetSource]
  · simp [legalTrigger, st, State.reset, State.resetWith, Config.default, resetTrigger]
theorem witness_EveryStepKeepsTheBuild : ({ mappedConfig with ibusMask := 0 }).wf = false := by decide
theorem witness_ResetValues :
    Config.default.vecFixed = false ∧ bareConfig.vecFixed = true ∧ 1 ≤ Config.default.extIntNum ∧
      Config.default.hasCounters = true := by decide

/-- A reset of the core, and one of the system with a reset-halt request. -/
theorem witness_PlatformResetRestartsTheCore :
    State.reset.cfg.wf = true ∧
      (nextInput { st [] with inputs := [{ quietInput with reset := some .core }] }).reset = some .core ∧
      (nextInput { st [] with
        inputs := [{ quietInput with reset := some (.system [(4, 1)]), request := some .resetHalt }] }).request =
          some .resetHalt := by decide

/-- A state whose next input brings this debug request. -/
def asked (s : State) (r : DebugRequest) : State := { s with inputs := [{ quietInput with request := some r }] }

/-- A quiet state with trigger 0 armed, and one that single-steps. -/
def withTrigger : State :=
  { quiet 0x007302B3 with
    dbg := { State.reset.dbg with triggers := (resetTrigger .mcontrol |> fun t => { t with data := 1 }) :: State.reset.dbg.triggers.tail } }
def stepping : State := { quiet 0x007302B3 with dbg := { State.reset.dbg with step := true } }

/-- A single step of EBREAK with EBREAKM = 1, and one whose fetch is answered by ERROR. -/
def steppingBreak : State := { quiet 0x00100073 with dbg := { State.reset.dbg with step := true, ebreakm := true } }
def steppingError : State := { quietError 0x100 with dbg := { State.reset.dbg with step := true } }

theorem witness_DebugEntry_step :
    (Quiet steppingBreak ∧ CanFetch (sampled steppingBreak) ∧ steppingBreak.dbg.ebreakm = true ∧
      decode (fetchBytes steppingBreak) = .ok .ebreak) ∧ Quiet steppingError ∧ FetchError (sampled steppingError) ∧
      steppingError.dbg.step = true := by
  simp only [Quiet, Unhindered, NoInterrupt, SteppingMasked, Running, Undisturbed, CanFetch, FetchError, WideAtPc, ParcelFetchable]
  decide

theorem witness_DebugEntry :
    (Undisturbed (asked (st []) .sync) ∧ (asked (st []) .sync).dbg.debugMode = false ∧ (asked (st []) .sync).hasDebug = true ∧
        (nextInput (asked (st []) .async)).request = some .async ∧ (nextInput (asked asleep .asyncInside)).request = some .asyncInside ∧
        asleep.sleeping = true ∧ (st []).sleeping = false ∧ (st []).csr.lockup = false) ∧
      (Running withTrigger ∧ withTrigger.sleeping = false ∧ NoInterrupt withTrigger ∧ withTrigger.hasDebug = true ∧
        withTrigger.dbg.triggers.any (armed withTrigger) = true) ∧
      Quiet stepping ∧ CanFetch (sampled stepping) ∧ stepping.dbg.step = true ∧ decode (fetchBytes stepping) = .ok (.add 5 6 7) ∧
      ∃ t, exec (.add 5 6 7) (sample stepping (nextInput stepping)) = .next t ∧ t.dbg.debugMode = false ∧ t.dbg.step = true ∧
        t.cfg = stepping.cfg := by
  simp only [Quiet, Unhindered, NoInterrupt, SteppingMasked, Running, Undisturbed, CanFetch, WideAtPc, ParcelFetchable]
  exact ⟨by decide, by decide, by decide, by decide, by decide, by decide, _, rfl, by decide, by decide, rfl⟩

/-- A halted hart of the mapped build given a command that acts on its device. -/
def haltedMapped (c : DebugCommand) : State := { halted c with cfg := mappedConfig }

theorem witness_DebuggerCommands_device :
    Halted (haltedMapped (.writeMem .word 0x3000 1)) ∧ misaligned .word 0x3000 = false ∧ inTcip 0x3000 = false ∧
      (nextInput (haltedMapped (.readMem .word 0x3000))).command = some (.readMem .word 0x3000) ∧
      response (sample (haltedMapped .resume) (nextInput (haltedMapped .resume))) .store (mainAddr 0x3000) = .device ∧
      response (sample (haltedMapped .resume) (nextInput (haltedMapped .resume))) .load (mainAddr 0x3000) = .device ∧
      misaligned .word 0x2002 = true ∧ inTcip 0x2000 = false ∧
      response (sample (haltedMapped .resume) (nextInput (haltedMapped .resume))) .store (mainAddr 0x2000) = .error := by
  simp only [Halted, Undisturbed]; decide

/-- A halted hart with each command the statement names; its instruction retires. -/
theorem witness_DebuggerCommands :
    Halted (halted .resume) ∧ (halted .resume).cfg.hasCounters = true ∧
      (nextInput (halted (.writeMem .word 0x1FFFFC 1))).command = some (.writeMem .word 0x1FFFFC 1) ∧
      misaligned .word 0x1FFFFC = false ∧ inTcip 0x1FFFFC = false ∧
      response (sample (halted .resume) (nextInput (halted .resume))) .store (mainAddr 0x1FFFFC) = .memory ∧
      Memory.wf (halted .resume).mem ∧
      (∃ t, tcipWrite (sample (halted .resume) (nextInput (halted .resume))) .word 0xE0000000 1 = .ok t) ∧
      (decode (leBytes 4 (0xFFF30293 : Word).toNat) = .ok (.addi 5 6 0xFFF) ∧ usesPc (.addi 5 6 0xFFF) = false ∧
        isBreak (.addi 5 6 0xFFF) = false ∧
        ∃ t, exec (.addi 5 6 0xFFF) (sample (halted .resume) (nextInput (halted .resume))) = .next t ∧
          t.trapStack = (halted .resume).trapStack ∧ t.pc ≠ (halted .resume).pc) ∧
      LowPc (halted .resume).dbg.dpc ∧ (halted .resume).dbg.dpc.getLsbD 0 = false ∧ (halted .resume).csr.lockup = false ∧
      (halted .resume).dbg.dpc ≠ 0x1FFFFC ∧ LowPc 0x1FFFFC := by
  simp only [Halted, Undisturbed, LowPc]
  exact ⟨by decide, by decide, by decide, by decide, by decide, by decide, by decide, ⟨_, rfl⟩,
    ⟨by decide, by decide, by decide, _, rfl, by decide, by decide⟩, by decide, by decide, by decide, by decide, by decide⟩

end Sys2Proof.Tests
end

section
/-!
Encodings that name a feature the E901 lacks, sorted by the part of the decoder that rejects them (30_encoding.md R164).
-/

namespace Sys2Proof

/-! ## The length rule (30_encoding.md R141) -/

/-- Bits [4:0] = 11111 announce an instruction longer than 32 bits. -/
theorem decode_leBytes_long {w : Nat} (h : field w 0 5 = 31) : decode (leBytes 4 w) = .error .illegal := by
  have h31 : w % 65536 % 32 = 31 := by simp only [field] at h; omega
  have h3 : w % 65536 % 4 = 3 := by omega
  simp [leBytes, decode, parcel_low, h31, h3]

/-! ## 16-bit parcels -/

theorem decode16_quadrant0 {p : Nat} (h : field p 0 2 = 0) : decode16 p = decQ0 p := by simp [decode16, h]

theorem decode16_quadrant2 {p : Nat} (h : field p 0 2 = 2) : decode16 p = decQ2 p := by simp [decode16, h]

/-- The compressed floating-point loads and stores of quadrant 00. -/
theorem decQ0_float {p : Nat} (h : field p 13 3 = 1 ∨ field p 13 3 = 3 ∨ field p 13 3 = 5 ∨ field p 13 3 = 7) :
    decQ0 p = .error .illegal := by
  rcases h with h | h | h | h <;> simp [decQ0, h]

/-- The compressed floating-point loads and stores of quadrant 10. -/
theorem decQ2_float {p : Nat} (h : field p 13 3 = 1 ∨ field p 13 3 = 3 ∨ field p 13 3 = 7) :
    decQ2 p = .error .illegal := by
  rcases h with h | h | h <;> simp [decQ2, h]

/-- A field above 001 names one of s2 to s7, which RV32E does not have (10_state.md R23). -/
theorem decSReg_eq_none {n : Nat} (h : 2 ≤ n) : decSReg n = none := by
  obtain ⟨m, rfl⟩ := Nat.exists_eq_add_of_le' h
  rfl

theorem withSRegs_illegal {p : Nat} (h : 2 ≤ field p 7 3 ∨ 2 ≤ field p 2 3) (k : SReg → SReg → Except Reject Instr) :
    withSRegs p k = .error .illegal := by
  rcases h with h | h
  · simp [withSRegs, decSReg_eq_none h]
  · simp [withSRegs, decSReg_eq_none h]

/-- Bits [15:10] = 101011 in quadrant 10 are the double moves' (44_zcb_zcmp_zcmt.md R367, R368). -/
theorem decQ2_move {p : Nat} (h : field p 10 6 = 0b101011) : decQ2 p = decMove p := by
  have h13 : field p 13 3 = 5 := by simp only [field] at *; omega
  have h10 : field p 10 3 = 3 := by simp only [field] at *; omega
  have h8 : field p 8 5 = 12 ∨ field p 8 5 = 13 ∨ field p 8 5 = 14 ∨ field p 8 5 = 15 := by
    simp only [field] at *; omega
  rcases h8 with h8 | h8 | h8 | h8 <;> simp only [decQ2, h13, decZcmpZcmt, h8, h10]

/-- A double move of s2 to s7. -/
theorem decMove_illegal {p : Nat} (h : field p 5 2 = 1 ∨ field p 5 2 = 3) (hr : 2 ≤ field p 7 3 ∨ 2 ≤ field p 2 3) :
    decMove p = .error .illegal := by
  rcases h with h | h <;> simp [decMove, h, withSRegs_illegal hr]

/-! ## 32-bit words -/

/-- The major opcodes without an instruction. -/
theorem decode32_opcode {w : Nat}
    (h : field w 0 7 ∉ [0x33, 0x13, 0x03, 0x23, 0x63, 0x37, 0x17, 0x6F, 0x67, 0x73, 0x0F, 0x2B, 0x5B, 0x7B]) :
    decode32 w = .error .illegal := by
  simp only [List.mem_cons, List.not_mem_nil, or_false, not_or] at h
  unfold decode32
  split
  case h_15 => rfl
  all_goals omega

/-- The divisions of the M extension. -/
theorem decOp_division {w : Nat} (h7 : field w 25 7 = 1) (h3 : 4 ≤ field w 12 3) : decOp w = .error .illegal := by
  have hlt : field w 12 3 < 8 := Nat.mod_lt _ (by decide)
  obtain h | h | h | h : field w 12 3 = 4 ∨ field w 12 3 = 5 ∨ field w 12 3 = 6 ∨ field w 12 3 = 7 := by omega
  all_goals simp [decOp, h7, h]

/-- A left shift by a six-bit amount. -/
theorem decOpImm_longShiftLeft {w : Nat} (h3 : field w 12 3 = 1) (h7 : field w 25 7 = 1) :
    decOpImm w = .error .illegal := by
  simp [decOpImm, h3, decShiftLeft, h7]

/-- A right shift by a six-bit amount. -/
theorem decOpImm_longShiftRight {w : Nat} (h3 : field w 12 3 = 5) (h7 : field w 25 7 = 1 ∨ field w 25 7 = 33) :
    decOpImm w = .error .illegal := by
  rcases h7 with h7 | h7 <;> simp [decOpImm, h3, decShiftRight, h7]

/-- The system words other than ECALL, EBREAK, MRET and WFI. -/
theorem decSystem_other {w : Nat} (h3 : field w 12 3 = 0) (h : w ∉ [0x00000073, 0x00100073, 0x30200073, 0x10500073]) :
    decSystem w = .error .illegal := by
  simp only [List.mem_cons, List.not_mem_nil, or_false, not_or] at h
  simp [decSystem, h3, h]

theorem decSystem_funct3_four {w : Nat} (h3 : field w 12 3 = 4) : decSystem w = .error .illegal := by
  simp [decSystem, h3]

theorem decFence_funct3_high {w : Nat} (h3 : 2 ≤ field w 12 3) : decFence w = .error .illegal := by
  unfold decFence
  split
  · omega
  · omega
  · rfl

/-- Settles O5: each family of encodings by the lemma about the part of the decoder that rejects it. -/
theorem missingFeatureEncodingsAreIllegal : Obligations.MissingFeatureEncodingsAreIllegal := by
  refine ⟨rfl, fun p _ h0 h => ?_, fun p _ h0 h => ?_, fun w hw h3 h => ?_, fun w hop h7 h3 => ?_,
    fun w hop h3 h7 => ?_, fun w hop h3 h7 => ?_, fun w hop h3 h => ?_, fun w hop h3 => ?_, fun w hop h3 => ?_,
    fun w _ h => decode_leBytes_long h, fun p _ h0 h10 h5 hr => ?_⟩
  case refine_1 => rw [decode16_quadrant0 h0, decQ0_float h]
  case refine_2 => rw [decode16_quadrant2 h0, decQ2_float h]
  case refine_3 =>
    by_cases h31 : field w 0 5 = 31
    · exact decode_leBytes_long h31
    · rw [decode_leBytes_wide hw (by simpa [field] using h3) (by simpa [field] using h31), decode32_opcode h]
  case refine_4 => simp only [decode32, hop, decOp_division h7 h3]
  case refine_5 => simp only [decode32, hop, decOpImm_longShiftLeft h3 h7]
  case refine_6 => simp only [decode32, hop, decOpImm_longShiftRight h3 h7]
  case refine_7 => simp only [decode32, hop, decSystem_other h3 h]
  case refine_8 => simp only [decode32, hop, decSystem_funct3_four h3]
  case refine_9 => simp only [decode32, hop, decFence_funct3_high h3]
  case refine_10 => rw [decode16_quadrant2 h0, decQ2_move h10, decMove_illegal h5 hr]

end Sys2Proof
end

section
/-!
The CSR instructions: what each of the six is in terms of a modifying and a reading access, what an access of each outcome
does, and what a CSR instruction leaves when it completes (10_state.md R33 to R65, 40_rv32e_base.md R240 to R246).
-/

namespace Sys2Proof.Machine

/-! ## The six instructions -/

theorem exec_csrrw (rd rs1 : Reg) (n : BitVec 12) (s : State) :
    exec (.csrrw rd rs1 n) s = csrModify s rd n fun c _ => csrWrite s c (s.x rs1) := rfl

theorem exec_csrrs (rd rs1 : Reg) (n : BitVec 12) (s : State) :
    exec (.csrrs rd rs1 n) s = notSwap n
      (if rs1 = 0 then csrFetch s rd n else csrModify s rd n fun c t => csrWrite s c (t ||| s.x rs1)) := rfl

theorem exec_csrrc (rd rs1 : Reg) (n : BitVec 12) (s : State) :
    exec (.csrrc rd rs1 n) s = notSwap n
      (if rs1 = 0 then csrFetch s rd n else csrModify s rd n fun c t => csrWrite s c (t &&& ~~~(s.x rs1))) := rfl

theorem exec_csrrwi (rd : Reg) (imm : BitVec 5) (n : BitVec 12) (s : State) :
    exec (.csrrwi rd imm n) s = notSwap n (csrModify s rd n (csrWriteImm s imm)) := rfl

theorem exec_csrrsi (rd : Reg) (imm : BitVec 5) (n : BitVec 12) (s : State) :
    exec (.csrrsi rd imm n) s = notSwap n
      (if imm = 0 then csrFetch s rd n else csrModify s rd n fun c t => csrWrite s c (t ||| zext5 imm)) := rfl

theorem exec_csrrci (rd : Reg) (imm : BitVec 5) (n : BitVec 12) (s : State) :
    exec (.csrrci rd imm n) s = notSwap n
      (if imm = 0 then csrFetch s rd n else csrModify s rd n fun c t => csrWrite s c (t &&& ~~~(zext5 imm))) := rfl

theorem notSwap_of_ne {n : BitVec 12} (h : csrOf n ≠ some .mscratchcswl) (k : Out) : notSwap n k = k := by
  simp [notSwap, h]

/-- A form that writes modifies the CSR. -/
theorem exec_writingForm {rd rs1 : Reg} {imm : BitVec 5} {n : BitVec 12} {i : Instr}
    (hi : i ∈ writingForms rd rs1 imm n) (hn : csrOf n ≠ some .mscratchcswl) (s : State) :
    ∃ f, exec i s = csrModify s rd n f := by
  simp only [writingForms, List.mem_append, List.mem_cons, List.not_mem_nil, or_false, List.mem_ite_nil_left] at hi
  rcases hi with ((rfl | rfl) | ⟨h, rfl | rfl⟩) | ⟨h, rfl | rfl⟩
  case inl.inl.inl => exact ⟨_, exec_csrrw ..⟩
  case inl.inl.inr => exact ⟨_, by rw [exec_csrrwi, notSwap_of_ne hn]⟩
  case inl.inr.inl => exact ⟨_, by rw [exec_csrrs, notSwap_of_ne hn, if_neg h]⟩
  case inl.inr.inr => exact ⟨_, by rw [exec_csrrc, notSwap_of_ne hn, if_neg h]⟩
  case inr.inl => exact ⟨_, by rw [exec_csrrsi, notSwap_of_ne hn, if_neg h]⟩
  case inr.inr => exact ⟨_, by rw [exec_csrrci, notSwap_of_ne hn, if_neg h]⟩

/-- A form that only reads does not depend on which one it is. -/
theorem exec_readingForm {rd : Reg} {n : BitVec 12} {i : Instr} (hi : i ∈ readingForms rd n)
    (hn : csrOf n ≠ some .mscratchcswl) (s : State) : exec i s = csrFetch s rd n := by
  simp only [readingForms, List.mem_cons, List.not_mem_nil, or_false] at hi
  rcases hi with rfl | rfl | rfl | rfl
  · rw [exec_csrrs, notSwap_of_ne hn, if_pos rfl]
  · rw [exec_csrrc, notSwap_of_ne hn, if_pos rfl]
  · rw [exec_csrrsi, notSwap_of_ne hn, if_pos rfl]
  · rw [exec_csrrci, notSwap_of_ne hn, if_pos rfl]

/-! ## Accesses by their outcome (10_state.md R35) -/

theorem csrAccess_mscratchcswl {n : BitVec 12} (h : csrOf n = some .mscratchcswl) (s : State) (write : Bool) :
    csrAccess s n write = .ok .mscratchcswl := by
  simp [csrAccess, h]

/-- An illegal access is not one of mscratchcswl, which machine mode may always access. -/
theorem ne_swap_of_illegal {s : State} {n : BitVec 12} {write : Bool} (h : csrAccess s n write = .illegal) :
    csrOf n ≠ some .mscratchcswl := fun hn => by
  simp [csrAccess_mscratchcswl hn] at h

theorem ne_swap_of_readOnly {s : State} {n : BitVec 12} {write : Bool} {c : CsrName}
    (h : csrAccess s n write = .readOnly c) : csrOf n ≠ some .mscratchcswl := fun hn => by
  simp [csrAccess_mscratchcswl hn] at h

theorem traps_of_illegal_write {s : State} {rd rs1 : Reg} {imm : BitVec 5} {n : BitVec 12}
    (h : csrAccess s n true = .illegal) : ∀ i ∈ writingForms rd rs1 imm n, Traps i s 2 := fun i hi => by
  obtain ⟨f, hf⟩ := exec_writingForm hi (ne_swap_of_illegal h) s
  simp only [Traps, hf, csrModify, h, raiseIllegal]

theorem traps_of_illegal_read {s : State} {rd : Reg} {n : BitVec 12} (h : csrAccess s n false = .illegal) :
    ∀ i ∈ readingForms rd n, Traps i s 2 := fun i hi => by
  simp only [Traps, exec_readingForm hi (ne_swap_of_illegal h), csrFetch, h, raiseIllegal]

/-- Where every access is illegal, every form raises exception 2. -/
theorem traps_of_illegal {s : State} {rd rs1 : Reg} {imm : BitVec 5} {n : BitVec 12}
    (h : ∀ write, csrAccess s n write = .illegal) :
    ∀ i ∈ writingForms rd rs1 imm n ++ readingForms rd n, Traps i s 2 := fun i hi => by
  rcases List.mem_append.mp hi with hi | hi
  · exact traps_of_illegal_write (h true) i hi
  · exact traps_of_illegal_read (h false) i hi

/-- A write that is ignored only reads. -/
theorem writes_of_ignored_write {s : State} {rd rs1 : Reg} {imm : BitVec 5} {n : BitVec 12} {c : CsrName}
    (h : csrAccess s n true = .readOnly c) : ∀ i ∈ writingForms rd rs1 imm n, Writes i s rd (csrRead s c) 4 :=
  fun i hi => by
    obtain ⟨f, hf⟩ := exec_writingForm hi (ne_swap_of_readOnly h) s
    exact writes_of_writeTo (by simp only [hf, csrModify, h, writeTo])

theorem writes_of_read {s : State} {rd : Reg} {n : BitVec 12} {c : CsrName} (h : csrAccess s n false = .ok c)
    (hn : csrOf n ≠ some .mscratchcswl) : ∀ i ∈ readingForms rd n, Writes i s rd (csrRead s c) 4 := fun i hi =>
  writes_of_writeTo (by simp only [exec_readingForm hi hn, csrFetch, h, writeTo])

/-! ## Which outcome an access has -/

theorem csrAccess_none {n : BitVec 12} (h : csrOf n = none) (s : State) (write : Bool) : csrAccess s n write = .illegal := by
  simp [csrAccess, h]

theorem csrAccess_identification {n : BitVec 12} {c : CsrName} (hn : csrOf n = some c)
    (hc : c ∈ [CsrName.mvendorid, .marchid, .mimpid, .mhartid]) (s : State) (write : Bool) :
    csrAccess s n write = noWrite c write := by
  simp only [List.mem_cons, List.not_mem_nil, or_false] at hc
  rcases hc with rfl | rfl | rfl | rfl <;> simp [csrAccess, hn]

theorem csrAccess_fixedVector {s : State} {n : BitVec 12} {c : CsrName} (hs : s.cfg.vecFixed = true)
    (hn : csrOf n = some c) (hc : c ∈ [CsrName.mtvec, .mtvt, .jvt]) (write : Bool) :
    csrAccess s n write = noWrite c write := by
  simp only [List.mem_cons, List.not_mem_nil, or_false] at hc
  rcases hc with rfl | rfl | rfl <;> simp [csrAccess, hn, hs]

theorem csrAccess_absentCounter {s : State} {n : BitVec 12} {c : CsrName} (hs : s.cfg.hasCounters = false)
    (hn : csrOf n = some c) (hc : c ∈ [CsrName.mcounteren, .mcountinhibit, .mcycle, .minstret]) (write : Bool) :
    csrAccess s n write = .illegal := by
  simp only [List.mem_cons, List.not_mem_nil, or_false] at hc
  rcases hc with rfl | rfl | rfl | rfl <;> simp [csrAccess, hn, counterCsr, hs]

theorem csrAccess_write_ignored {n : BitVec 12} {c : CsrName} (hn : csrOf n = some c)
    (hc : c ∈ [CsrName.misa, .mraddr]) (s : State) : csrAccess s n true = .readOnly c := by
  simp only [List.mem_cons, List.not_mem_nil, or_false] at hc
  rcases hc with rfl | rfl <;> simp [csrAccess, hn]

theorem csrAccess_write_mcpuid {n : BitVec 12} (hn : csrOf n = some .mcpuid) (s : State) :
    csrAccess s n true = .illegal := by
  simp [csrAccess, hn, noWrite]

theorem csrAccess_write_debugInfo {s : State} {n : BitVec 12} {c : CsrName} (hs : s.hasDebug = true)
    (hn : csrOf n = some c) (hc : c ∈ [CsrName.mdbginfo, .mpcfifo]) : csrAccess s n true = .illegal := by
  simp only [List.mem_cons, List.not_mem_nil, or_false] at hc
  rcases hc with rfl | rfl <;> simp [csrAccess, hn, hs, noWrite]

theorem csrAccess_debugOnly {s : State} {n : BitVec 12} {c : CsrName} (hs : s.dbg.debugMode = false)
    (hn : csrOf n = some c) (hc : c ∈ [CsrName.dcsr, .dpc, .dscratch0, .dscratch1]) (write : Bool) :
    csrAccess s n write = .illegal := by
  simp only [List.mem_cons, List.not_mem_nil, or_false] at hc
  rcases hc with rfl | rfl | rfl | rfl <;> simp [csrAccess, hn, hs]

/-- A write of a CSR whose outcome R35 (e) leaves open traps or is ignored, as the free value for its number says. -/
theorem csrAccess_write_open {s : State} {n : BitVec 12} {c : CsrName} (hn : csrOf n = some c)
    (hc : c ∈ [CsrName.mip, .mcounteren, .mclicbase, .tinfo]) (hr : Readable s c) :
    csrAccess s n true = if Config.roCsrWriteTraps n then .illegal else .readOnly c := by
  simp only [List.mem_cons, List.not_mem_nil, or_false] at hc
  rcases hc with rfl | rfl | rfl | rfl <;> simp only [Readable] at hr <;> simp [csrAccess, hn, counterCsr, openReadOnly, hr]

/-- An access that is carried out, in whole or as a read, concerns the CSR `c`. -/
def CsrAccess.Concerns (c : CsrName) : CsrAccess → Prop
  | .ok d => d = c
  | .readOnly d => d = c
  | .illegal => True
  | .refused _ => True

@[simp] theorem concerns_ok (c d : CsrName) : (CsrAccess.ok d).Concerns c ↔ d = c := .rfl
@[simp] theorem concerns_readOnly (c d : CsrName) : (CsrAccess.readOnly d).Concerns c ↔ d = c := .rfl
@[simp] theorem concerns_illegal (c : CsrName) : CsrAccess.illegal.Concerns c := trivial
@[simp] theorem concerns_refused (c : CsrName) (r : Refusal) : (CsrAccess.refused r).Concerns c := trivial

theorem concerns_ite {p : Prop} [Decidable p] {c : CsrName} {a b : CsrAccess} (ha : a.Concerns c) (hb : b.Concerns c) :
    (if p then a else b).Concerns c := by
  split
  · exact ha
  · exact hb

@[simp] theorem noWrite_concerns (c : CsrName) (write : Bool) : (noWrite c write).Concerns c :=
  concerns_ite (by simp) (by simp)

@[simp] theorem openReadOnly_concerns (n : BitVec 12) (c : CsrName) (write : Bool) : (openReadOnly n c write).Concerns c :=
  concerns_ite (by simp) (concerns_ite (by simp) (by simp))

@[simp] theorem debugCsr_concerns (s : State) (c : CsrName) : (debugCsr s c).Concerns c :=
  concerns_ite (by simp) (by simp)

@[simp] theorem triggerCsr_concerns (s : State) (c : CsrName) (write : Bool) : (triggerCsr s c write).Concerns c :=
  concerns_ite (by simp) (concerns_ite (concerns_ite (by simp) (by simp)) (by simp))

theorem counterCsr_concerns (s : State) {c : CsrName} {a : CsrAccess} (h : a.Concerns c) : (counterCsr s a).Concerns c :=
  concerns_ite h (by simp)

/-- An access by number concerns the CSR with that number. -/
theorem csrAccess_concerns {n : BitVec 12} {c : CsrName} (h : csrOf n = some c) (s : State) (write : Bool) :
    (csrAccess s n write).Concerns c := by
  cases c <;> simp [csrAccess, h, concerns_ite, counterCsr_concerns]

theorem csrOf_of_ok {s : State} {n : BitVec 12} {write : Bool} {c : CsrName} (h : csrAccess s n write = .ok c) :
    csrOf n = some c := by
  cases hn : csrOf n with
  | none => simp [csrAccess_none hn] at h
  | some d =>
    have hd := csrAccess_concerns hn s write
    rw [h, concerns_ok] at hd
    rw [hd]

/-- Outside debug mode no access to a register of debug mode is carried out (R63 to R65). -/
theorem not_debugOnly_of_ok {s : State} {n : BitVec 12} {write : Bool} {c : CsrName} (hs : s.dbg.debugMode = false)
    (h : csrAccess s n write = .ok c) : c ∉ [CsrName.dcsr, .dpc, .dscratch0, .dscratch1] := fun hc => by
  simp [csrAccess_debugOnly hs (csrOf_of_ok h) hc] at h

/-! ## The identification registers and the other outcomes (10_state.md R33 to R35) -/

/-- Settles O30: each number is one of the four identification registers, whose writes are illegal. -/
theorem identificationRegisters : Obligations.IdentificationRegisters := by
  refine ⟨rfl, rfl, rfl, rfl, fun s => ⟨rfl, rfl, rfl, ?_, s.cfg.hartidLow.isLt⟩, fun s rd rs1 imm n hn => ?_⟩
  · exact (BitVec.ofNat_toNat 32 s.cfg.hartidLow).symm
  · obtain ⟨c, hc, hmem⟩ : ∃ c, csrOf n = some c ∧ c ∈ [CsrName.mvendorid, .marchid, .mimpid, .mhartid] := by
      simp only [List.mem_cons, List.not_mem_nil, or_false] at hn
      rcases hn with rfl | rfl | rfl | rfl <;> exact ⟨_, rfl, by decide⟩
    have access := csrAccess_identification hc hmem s
    have traps := traps_of_illegal_write (rd := rd) (rs1 := rs1) (imm := imm) (access true)
    have swap := ne_swap_of_illegal (access true)
    rw [hc]
    refine ⟨writes_of_read (access false) swap _ (by simp [readingForms]), traps _ (by simp [writingForms]),
      traps _ (by simp [writingForms]), fun h => ⟨traps _ ?_, traps _ ?_⟩, fun h => ⟨traps _ ?_, traps _ ?_⟩⟩
    all_goals simpa [writingForms] using h

/-- Settles O31: each clause by the outcome of the access it is about. -/
theorem csrAccessOutcomes : Obligations.CsrAccessOutcomes := by
  refine ⟨fun s rd rs1 imm n => ⟨fun hs hn => ?_, fun hs hn => ?_, fun hn => ?_, fun h => ?_, fun h => ?_⟩, fun p hp => ?_⟩
  case refine_1 =>
    obtain ⟨c, hc, hmem⟩ : ∃ c, csrOf n = some c ∧ c ∈ [CsrName.mtvec, .mtvt, .jvt] := by
      rcases hn with rfl | rfl | rfl <;> exact ⟨_, rfl, by decide⟩
    have access := csrAccess_fixedVector hs hc hmem
    exact ⟨traps_of_illegal_write (access true), c, hc, writes_of_read (access false) (ne_swap_of_illegal (access true))⟩
  case refine_2 =>
    obtain ⟨c, hc, hmem⟩ : ∃ c, csrOf n = some c ∧ c ∈ [CsrName.mcounteren, .mcountinhibit, .mcycle, .minstret] := by
      rcases hn with rfl | rfl | rfl | rfl <;> exact ⟨_, rfl, by decide⟩
    exact traps_of_illegal (csrAccess_absentCounter hs hc hmem)
  case refine_3 =>
    obtain ⟨c, hc, hmem⟩ : ∃ c, csrOf n = some c ∧ c ∈ [CsrName.misa, .mraddr] := by
      rcases hn with rfl | rfl <;> exact ⟨_, rfl, by decide⟩
    exact ⟨c, hc, writes_of_ignored_write (csrAccess_write_ignored hc hmem s)⟩
  case refine_4 =>
    rcases h with rfl | ⟨hs, hn⟩
    · exact traps_of_illegal_write (csrAccess_write_mcpuid rfl s)
    · obtain ⟨c, hc, hmem⟩ : ∃ c, csrOf n = some c ∧ c ∈ [CsrName.mdbginfo, .mpcfifo] := by
        rcases hn with rfl | rfl <;> exact ⟨_, rfl, by decide⟩
      exact traps_of_illegal_write (csrAccess_write_debugInfo hs hc hmem)
  case refine_5 =>
    rcases h with hn | ⟨hs, hn⟩
    · exact traps_of_illegal (csrAccess_none hn s)
    · obtain ⟨c, hc, hmem⟩ : ∃ c, csrOf n = some c ∧ c ∈ [CsrName.dcsr, .dpc, .dscratch0, .dscratch1] := by
        rcases hn with rfl | rfl | rfl | rfl <;> exact ⟨_, rfl, by decide⟩
      exact traps_of_illegal (csrAccess_debugOnly hs hc hmem)
  case refine_6 =>
    obtain ⟨n, c⟩ := p
    obtain ⟨hc, hmem⟩ : csrOf n = some c ∧ c ∈ [CsrName.mip, .mcounteren, .mclicbase, .tinfo] := by
      simp only [List.mem_cons, List.not_mem_nil, or_false, Prod.mk.injEq] at hp
      rcases hp with ⟨rfl, rfl⟩ | ⟨rfl, rfl⟩ | ⟨rfl, rfl⟩ | ⟨rfl, rfl⟩ <;> exact ⟨rfl, by decide⟩
    refine ⟨hc, ?_⟩
    cases free : Config.roCsrWriteTraps n with
    | true => exact .inl fun s rd rs1 imm hr => traps_of_illegal_write (by simp [csrAccess_write_open hc hmem hr, free])
    | false => exact .inr fun s rd rs1 imm hr => writes_of_ignored_write (by simp [csrAccess_write_open hc hmem hr, free])

/-! ## mscratchcswl (10_state.md R41) -/

/-- A CSR write that leaves mcountinhibit and the debug unit retires as any other instruction does. -/
theorem retireCsr_eq_retire {s t : State} {c : CsrName} (hc : c ≠ .minstret) (hcfg : t.cfg = s.cfg)
    (hmir : t.ctr.mir = s.ctr.mir) (hdbg : t.dbg = s.dbg) : retireCsr s t c = t.retire 4 := by
  simp [retireCsr, hc, countsRetired_congr hcfg hmir hdbg]

/-- CSRRW on mscratchcswl puts rs1 into mscratch and mscratch into rd. -/
theorem exec_csrrw_mscratchcswl (s : State) (rd rs1 : Reg) :
    exec (.csrrw rd rs1 0x349) s =
      .next (((withCsr s { s.csr with mscratch := s.x rs1 }).setX rd s.csr.mscratch).retire 4) := by
  have access : csrAccess s 0x349 true = .ok .mscratchcswl := csrAccess_mscratchcswl rfl s true
  simp only [exec_csrrw, csrModify, access, csrWrite, csrRead]
  rw [retireCsr_eq_retire (by decide) (by simp) (by simp) (by simp)]

theorem notSwap_mscratchcswl (k : Out) : notSwap 0x349 k = .refused .mscratchcswlForm :=
  if_pos rfl

/-- Settles O32: the exchange is a register write and a retirement from the state with mscratch replaced. -/
theorem mscratchcswlSwaps : Obligations.MscratchcswlSwaps := by
  refine ⟨fun s rd rs1 => ?_, fun s rd rs1 imm i hi => ?_⟩
  · refine ⟨_, exec_csrrw_mscratchcswl s rd rs1, ?_, by simp, by simp, ?_⟩
    · rw [x_retire, x_setX_written]
    · obtain ⟨hregs, hmem, hstale, hsystem, hcounted⟩ := registerFrame_setX_retireTo
        (withCsr s { s.csr with mscratch := s.x rs1 }) rd s.csr.mscratch
        (((withCsr s { s.csr with mscratch := s.x rs1 }).setX rd s.csr.mscratch).pc + 4)
      exact ⟨hregs, hmem, hstale, by simp [SameSystem, State.retire], hcounted⟩
  · simp only [List.mem_cons, List.not_mem_nil, or_false] at hi
    rcases hi with rfl | rfl | rfl | rfl | rfl
    · rw [exec_csrrs, notSwap_mscratchcswl]
    · rw [exec_csrrc, notSwap_mscratchcswl]
    · rw [exec_csrrwi, notSwap_mscratchcswl]
    · rw [exec_csrrsi, notSwap_mscratchcswl]
    · rw [exec_csrrci, notSwap_mscratchcswl]

/-! ## What a CSR instruction that completes leaves -/

/-- The registers machine mode may not write are kept from `s` to `t` (10_state.md R53, R63 to R65). -/
def KeepsTrapAndDebug (s t : State) : Prop :=
  t.csr.exptVld = s.csr.exptVld ∧ t.csr.lockup = s.csr.lockup ∧ t.dbg.debugMode = s.dbg.debugMode ∧
    t.dbg.dpc = s.dbg.dpc ∧ t.dbg.dscratch0 = s.dbg.dscratch0 ∧ t.dbg.dscratch1 = s.dbg.dscratch1 ∧
    csrRead t .dcsr = csrRead s .dcsr

/-- They depend on the machine CSRs and the debug unit only. -/
theorem keepsTrapAndDebug_congr {s t u : State} (hcsr : t.csr = u.csr) (hdbg : t.dbg = u.dbg)
    (h : KeepsTrapAndDebug s u) : KeepsTrapAndDebug s t := by
  simpa only [KeepsTrapAndDebug, csrRead, dcsrValue, hcsr, hdbg] using h

theorem keepsTrapAndDebug_refl (s : State) : KeepsTrapAndDebug s s := ⟨rfl, rfl, rfl, rfl, rfl, rfl, rfl⟩

/-- Outside debug mode a write of any CSR but the registers of debug mode keeps them. -/
theorem csrWrite_keepsTrapAndDebug {s : State} {c : CsrName} (hs : s.dbg.debugMode = false)
    (hc : c ∉ [CsrName.dcsr, .dpc, .dscratch0, .dscratch1]) (v : Word) : KeepsTrapAndDebug s (csrWrite s c v) := by
  cases c
  case dcsr | dpc | dscratch0 | dscratch1 => simp at hc
  case mexstatus => simp [KeepsTrapAndDebug, csrWrite, mexstatusAfter, hs, csrRead, dcsrValue]
  all_goals exact ⟨rfl, rfl, rfl, rfl, rfl, rfl, rfl⟩

/-- How a CSR instruction on `n` that completes from `s` ends: exception 2, a read, or a write of one value. -/
inductive CsrResult (s : State) (rd : Reg) (n : BitVec 12) : State → Prop
  | trap : CsrResult s rd n (raise s 2)
  | read (c : CsrName) : CsrResult s rd n ((s.setX rd (csrRead s c)).retire 4)
  | write (c : CsrName) (v : Word) (h : csrAccess s n true = .ok c) :
      CsrResult s rd n (retireCsr s ((csrWrite s c v).setX rd (csrRead s c)) c)

theorem csrResult_of_csrFetch {s t : State} {rd : Reg} {n : BitVec 12} (h : csrFetch s rd n = .next t) :
    CsrResult s rd n t := by
  rcases csrFetch_next h with ⟨_, rfl⟩ | ⟨c, _, rfl⟩
  · exact .trap
  · exact .read c

/-- A modification whose effect is a CSR write of some value. -/
theorem csrResult_of_csrModify {s t : State} {rd : Reg} {n : BitVec 12} {f : CsrName → Word → State}
    (hf : ∀ c w, ∃ v, f c w = csrWrite s c v) (h : csrModify s rd n f = .next t) : CsrResult s rd n t := by
  rcases csrModify_next h with ⟨_, rfl⟩ | ⟨c, _, rfl⟩ | ⟨c, access, rfl⟩
  · exact .trap
  · exact .read c
  · obtain ⟨v, hv⟩ := hf c (csrRead s c)
    rw [hv]
    exact .write c v access

theorem csrResult_of_ite {p : Prop} [Decidable p] {s t : State} {rd : Reg} {n : BitVec 12} {f : CsrName → Word → State}
    (hf : ∀ c w, ∃ v, f c w = csrWrite s c v)
    (h : (if p then csrFetch s rd n else csrModify s rd n f) = .next t) : CsrResult s rd n t := by
  split at h
  · exact csrResult_of_csrFetch h
  · exact csrResult_of_csrModify hf h

/-- Of mscratchcswl nothing completes but CSRRW. -/
theorem notSwap_next {n : BitVec 12} {k : Out} {t : State} (h : notSwap n k = .next t) : k = .next t := by
  unfold notSwap at h
  split at h
  · cases h
  · exact h

/-- Whichever reading CSRRWI_UPPER names, CSRRWI writes one value. -/
theorem csrWriteImm_is_csrWrite (s : State) (imm : BitVec 5) (c : CsrName) (w : Word) :
    ∃ v, csrWriteImm s imm c w = csrWrite s c v := by
  rw [csrWriteImm_eq]
  cases Config.csrrwiUpper <;> exact ⟨_, rfl⟩

/-- What each of the six CSR instructions can answer. -/
theorem csrResult_of_exec {s t : State} {rd rs1 : Reg} {imm : BitVec 5} {n : BitVec 12} {i : Instr}
    (hi : i ∈ [Instr.csrrw rd rs1 n, .csrrs rd rs1 n, .csrrc rd rs1 n, .csrrwi rd imm n, .csrrsi rd imm n, .csrrci rd imm n])
    (h : exec i s = .next t) : CsrResult s rd n t := by
  simp only [List.mem_cons, List.not_mem_nil, or_false] at hi
  rcases hi with rfl | rfl | rfl | rfl | rfl | rfl
  · exact csrResult_of_csrModify (fun _ _ => ⟨_, rfl⟩) (exec_csrrw .. ▸ h)
  · exact csrResult_of_ite (fun _ _ => ⟨_, rfl⟩) (notSwap_next (exec_csrrs .. ▸ h))
  · exact csrResult_of_ite (fun _ _ => ⟨_, rfl⟩) (notSwap_next (exec_csrrc .. ▸ h))
  · exact csrResult_of_csrModify (csrWriteImm_is_csrWrite s imm) (notSwap_next (exec_csrrwi .. ▸ h))
  · exact csrResult_of_ite (fun _ _ => ⟨_, rfl⟩) (notSwap_next (exec_csrrsi .. ▸ h))
  · exact csrResult_of_ite (fun _ _ => ⟨_, rfl⟩) (notSwap_next (exec_csrrci .. ▸ h))

/-- A CSR instruction outside debug mode traps or keeps the registers of debug mode, EXPT_VLD and LOCKUP. -/
theorem csrResult_keepsTrapAndDebug {s t : State} {rd : Reg} {n : BitVec 12} (hs : s.dbg.debugMode = false)
    (h : CsrResult s rd n t) : t = raise s 2 ∨ KeepsTrapAndDebug s t := by
  cases h with
  | trap => exact .inl rfl
  | read c => exact .inr (keepsTrapAndDebug_congr (by simp) (by simp) (keepsTrapAndDebug_refl s))
  | write c v access =>
    have kept := csrWrite_keepsTrapAndDebug hs (not_debugOnly_of_ok hs access) v
    obtain ⟨_, _, hcsr, hdbg, _⟩ := retireCsr_frame s ((csrWrite s c v).setX rd (csrRead s c)) c
    exact .inr (keepsTrapAndDebug_congr (hcsr.trans (setX_csr ..)) (hdbg.trans (setX_dbg ..)) kept)

/-- Settles O33, by the three ends a CSR instruction can have. -/
theorem csrInstructionsKeepTrapAndDebugState : Obligations.CsrInstructionsKeepTrapAndDebugState := by
  intro s t rd rs1 imm n hs i hi h
  simpa only [KeepsTrapAndDebug, hs] using csrResult_keepsTrapAndDebug hs (csrResult_of_exec hi h)

/-! ## mstatus (10_state.md R36, R44) -/

/-- A bit read off a word and put back at its position is the word under that bit's mask. -/
theorem bitAt_getLsbD (v : Word) (k : Nat) : bitAt (v.getLsbD k) k = v &&& BitVec.twoPow 32 k := by
  rw [BitVec.and_twoPow]
  cases v.getLsbD k <;> simp [bitAt, boolWord, BitVec.twoPow]

theorem mstatusValue_eq_add (s : State) :
    mstatusValue s = 0x1800 + (if s.csr.mpie then 0x80 else 0) + (if s.csr.mie then 0x08 else 0) := by
  unfold mstatusValue
  cases s.csr.mpie <;> cases s.csr.mie <;> rfl

theorem mstatusValue_csrWrite (s : State) (v : Word) :
    mstatusValue (csrWrite s .mstatus v) = 0x1800 ||| (v &&& 0x88) := by
  have mask : (0x88 : Word) = BitVec.twoPow 32 7 ||| BitVec.twoPow 32 3 := by decide
  simp only [mstatusValue, csrWrite, withCsr_csr, bitAt_getLsbD]
  rw [BitVec.or_assoc, mask, BitVec.and_or_distrib_left]

/-- mcause without the mirror of MPIE. -/
def mcauseBesideMpie (s : State) : Word :=
  bitAt s.csr.causeInt 31 ||| bitAt s.csr.minhv 30 ||| 0x30000000 ||| s.csr.causeCode.setWidth 32

theorem mcauseValue_eq_or (s : State) : mcauseValue s = mcauseBesideMpie s ||| bitAt s.csr.mpie 27 := by
  rw [mcauseValue, mcauseBesideMpie, BitVec.or_assoc _ (bitAt s.csr.mpie 27), BitVec.or_comm (bitAt s.csr.mpie 27),
    ← BitVec.or_assoc]

/-- A value of nine bits has no bit 27. -/
theorem setWidth_and_mask (c : BitVec 9) : c.setWidth 32 &&& 0xF7FFFFFF = c.setWidth 32 := by
  have mask : ∀ j : Fin 9, (0xF7FFFFFF#32).getLsbD j.val = true := by decide
  refine BitVec.eq_of_getLsbD_eq fun i hi => ?_
  rw [BitVec.getLsbD_and, BitVec.getLsbD_setWidth]
  by_cases h : i < 9
  · exact (congrArg _ (mask ⟨i, h⟩)).trans (Bool.and_true _)
  · simp [BitVec.getLsbD_of_ge c i (by omega)]

theorem mcauseBesideMpie_and_mask (s : State) : mcauseBesideMpie s &&& 0xF7FFFFFF = mcauseBesideMpie s := by
  have flags : ∀ a b, (bitAt a 31 ||| bitAt b 30 ||| 0x30000000) &&& 0xF7FFFFFF = bitAt a 31 ||| bitAt b 30 ||| 0x30000000 := by
    decide
  rw [mcauseBesideMpie, BitVec.and_or_distrib_right, flags, setWidth_and_mask]

/-- A write of mstatus changes bit 27 of mcause alone. -/
theorem mcauseValue_csrWrite_mstatus (s : State) (v : Word) :
    mcauseValue (csrWrite s .mstatus v) =
      (mcauseValue s &&& 0xF7FFFFFF) ||| (if v.getLsbD 7 then 0x08000000 else 0) := by
  have beside : mcauseBesideMpie (csrWrite s .mstatus v) = mcauseBesideMpie s := rfl
  have mirror : ∀ b, bitAt b 27 = if b then 0x08000000 else 0 := by decide
  have masked : ∀ b, bitAt b 27 &&& 0xF7FFFFFF = 0#32 := by decide
  calc mcauseValue (csrWrite s .mstatus v)
      = mcauseBesideMpie s ||| bitAt (v.getLsbD 7) 27 := by rw [mcauseValue_eq_or, beside]; rfl
    _ = (mcauseValue s &&& 0xF7FFFFFF) ||| bitAt (v.getLsbD 7) 27 := by
        rw [mcauseValue_eq_or, BitVec.and_or_distrib_right, masked, mcauseBesideMpie_and_mask, BitVec.or_zero]
    _ = (mcauseValue s &&& 0xF7FFFFFF) ||| (if v.getLsbD 7 then 0x08000000 else 0) := by rw [mirror]

/-- Every CSR but mstatus and mcause reads as before. -/
theorem csrRead_csrWrite_mstatus_other (s : State) (v : Word) {c : CsrName} (h : c ≠ .mstatus) (h' : c ≠ .mcause) :
    csrRead (csrWrite s .mstatus v) c = csrRead s c := by
  cases c
  case mstatus => exact absurd rfl h
  case mcause => exact absurd rfl h'
  all_goals rfl

/-- Settles O28: its form, the value after a write, the mirror in mcause and the frame, each by its lemma. -/
theorem mstatusHasOnlyMieAndMpie : Obligations.MstatusHasOnlyMieAndMpie :=
  ⟨rfl, rfl, mstatusValue_eq_add, fun s v => ⟨mstatusValue_csrWrite s v, mcauseValue_csrWrite_mstatus s v,
    fun _ h h' => csrRead_csrWrite_mstatus_other s v h h'⟩⟩

end Sys2Proof.Machine
end

section
/-!
Data accesses to the main space: alignment and the address bits they use (20_memory.md R101, R106), and the order of the
bytes of a word, in memory and through the store and load instructions (R111).
-/

namespace Sys2Proof.Machine

/-! ## Alignment and address decoding (20_memory.md R101, R106) -/

theorem misaligned_iff (w : Width) (a : Word) : misaligned w a = true ↔ a.toNat % w.bytes ≠ 0 := by
  simp [misaligned]

theorem aligned_iff (w : Width) (a : Word) : misaligned w a = false ↔ a.toNat % w.bytes = 0 := by
  simp [misaligned]

theorem getLsbD_iff_div (a : Word) (i : Nat) : a.getLsbD i = true ↔ a.toNat / 2 ^ i % 2 = 1 := by
  rw [BitVec.getLsbD, Nat.testBit_eq_decide_div_mod_eq, decide_eq_true_iff]

/-- The TCIP window is the addresses whose top hexadecimal digit is E. -/
theorem inTcip_iff (a : Word) : inTcip a = true ↔ a.toNat / 2 ^ 28 = 0xE := by
  rw [inTcip, decide_eq_true_iff]
  omega

/-- Addresses with the same bits [20:0] are aligned alike, for every width divides 2^21. -/
theorem misaligned_congr {a b : Word} (h : a.toNat % 2 ^ 21 = b.toNat % 2 ^ 21) (w : Width) :
    misaligned w a = misaligned w b := by
  rw [Bool.eq_iff_iff, misaligned_iff, misaligned_iff]
  cases w <;> simp only [Width.bytes] <;> omega

/-- Outside the TCIP window a load uses bits [20:0] of its address only. -/
theorem loadMem_congr {a b : Word} (ha : inTcip a = false) (hb : inTcip b = false)
    (h : a.toNat % 2 ^ 21 = b.toNat % 2 ^ 21) (s : State) (w : Width) : loadMem s w a = loadMem s w b := by
  have hmain : mainAddr a = mainAddr b := h
  simp [loadMem, misaligned_congr h w, ha, hb, hmain]

/-- Outside the TCIP window a store uses bits [20:0] of its address only. -/
theorem storeMem_congr {a b : Word} (ha : inTcip a = false) (hb : inTcip b = false)
    (h : a.toNat % 2 ^ 21 = b.toNat % 2 ^ 21) (s : State) (w : Width) (v : Word) :
    storeMem s w a v = storeMem s w b v := by
  have hmain : mainAddr a = mainAddr b := h
  simp [storeMem, misaligned_congr h w, ha, hb, hmain]

/-- Settles O24: alignment by the remainder of the address, and the two accesses by the bits they use. -/
theorem alignmentAndAddressDecoding : Obligations.AlignmentAndAddressDecoding := by
  refine ⟨fun a => ⟨?_, ?_, ?_⟩, inTcip_iff, fun s w a b v ha hb h =>
    ⟨loadMem_congr ha hb h s w, storeMem_congr ha hb h s w v⟩⟩
  · exact (aligned_iff .byte a).mpr (Nat.mod_one _)
  · rw [misaligned_iff, getLsbD_iff_div, Width.bytes]
    omega
  · rw [misaligned_iff, getLsbD_iff_div, getLsbD_iff_div, Width.bytes]
    omega

/-! ## Little-endian values (20_memory.md R111) -/

/-- Appending puts the upper part above the lower one. -/
theorem toNat_append_eq_add {m n : Nat} (x : BitVec m) (y : BitVec n) : (x ++ y).toNat = x.toNat * 2 ^ n + y.toNat := by
  rw [BitVec.toNat_append, ← Nat.shiftLeft_add_eq_or_of_lt y.isLt, Nat.shiftLeft_eq]

/-- A read is the little-endian value of its bytes. -/
theorem read_eq_leValue (m : List Host.Cell) (w : Width) (a : Nat) :
    Memory.read m w a = BitVec.ofNat 32 (leValue m a w.bytes) := by
  refine BitVec.eq_of_toNat_eq ?_
  cases w <;>
    simp only [Memory.read, leValue, Width.bytes, BitVec.toNat_setWidth, BitVec.toNat_ofNat, toNat_append_eq_add,
      show a + 1 + 1 = a + 2 from rfl, show a + 2 + 1 = a + 3 from rfl] <;>
    omega

/-- The little-endian value of `n` bytes from the k-th one on, where the bytes are those of `v`. -/
theorem leValue_of_bytes {m : List Host.Cell} {a : Nat} {v : Word} (n k : Nat)
    (h : ∀ j < k + n, Memory.readByte m (a + j) = v.extractLsb' (8 * j) 8) :
    leValue m (a + k) n = v.toNat / 2 ^ (8 * k) % 2 ^ (8 * n) := by
  induction n generalizing k with
  | zero => simp [leValue, Nat.mod_one]
  | succ n ih =>
    have low : (Memory.readByte m (a + k)).toNat = v.toNat / 2 ^ (8 * k) % 2 ^ 8 := by
      rw [h k (by omega), BitVec.extractLsb'_toNat, Nat.shiftRight_eq_div_pow]
    have high : leValue m (a + k + 1) n = v.toNat / 2 ^ (8 * k) / 2 ^ 8 % 2 ^ (8 * n) := by
      rw [Nat.add_assoc, ih (k + 1) fun j hj => h j (by omega), Nat.div_div_eq_div_mul, ← Nat.pow_add, Nat.mul_add]
    have hpow : 2 ^ (8 * (n + 1)) = 2 ^ 8 * 2 ^ (8 * n) := by rw [← Nat.pow_add]; congr 1; omega
    rw [leValue, low, high, hpow, Nat.mod_mul]
    rfl

/-! ## The bytes of a word through the load instructions -/

/-- The word at `a` is aligned and answered by memory, whichever of its bytes is accessed: no platform map, no bus error, and
neither the TCIP window nor the instruction-bus region. -/
def PlainWordAt (s : State) (a : Word) : Prop :=
  misaligned .word a = false ∧ inTcip a = false ∧ s.cfg.platform = [] ∧ s.pins.busErrors = [] ∧
    ∀ k < 4, inIbus s.cfg (mainAddr a + k) = false

theorem plainWordAt_congr {s t : State} (hcfg : t.cfg = s.cfg) (hpins : t.pins = s.pins) {a : Word}
    (h : PlainWordAt s a) : PlainWordAt t a := by
  simpa only [PlainWordAt, hcfg, hpins] using h

/-- Without a platform map and bus errors memory answers every access. -/
theorem response_unmapped {s : State} (hp : s.cfg.platform = []) (hb : s.pins.busErrors = []) (k : AccessKind) (a : Nat) :
    response s k a = .memory := by
  simp [response, mapped, findRegion, busError, hp, hb]

/-- A byte of an aligned word lies that many addresses above it. -/
theorem toNat_add_within {a : Word} (h : misaligned .word a = false) {k : Nat} (hk : k < 4) :
    (a + BitVec.ofNat 32 k).toNat = a.toNat + k := by
  have haligned : a.toNat % 4 = 0 := (aligned_iff .word a).mp h
  have hlt := a.isLt
  rw [BitVec.toNat_add, BitVec.toNat_ofNat]
  omega

theorem mainAddr_add_within {a : Word} (h : misaligned .word a = false) {k : Nat} (hk : k < 4) :
    mainAddr (a + BitVec.ofNat 32 k) = mainAddr a + k := by
  have haligned : a.toNat % 4 = 0 := (aligned_iff .word a).mp h
  simp only [mainAddr, toNat_add_within h hk, mainSize]
  omega

/-- A naturally aligned part of a plain word is loaded from memory. -/
theorem loadsFromMemory_within {s : State} {a : Word} (h : PlainWordAt s a) {w : Width} {k : Nat}
    (hk : k + w.bytes ≤ 4) (hw : k % w.bytes = 0) : LoadsFromMemory s w (a + BitVec.ofNat 32 k) := by
  obtain ⟨hmis, htcip, hplatform, herrors, hibus⟩ := h
  have hk4 : k < 4 := by cases w <;> simp only [Width.bytes] at hk <;> omega
  have haligned : a.toNat % 4 = 0 := (aligned_iff .word a).mp hmis
  refine ⟨?_, ?_, ?_, response_unmapped hplatform herrors _ _⟩
  · rw [aligned_iff, toNat_add_within hmis hk4]
    cases w <;> simp only [Width.bytes] at hw ⊢ <;> omega
  · rw [← Bool.not_eq_true, inTcip_iff] at htcip ⊢
    rw [toNat_add_within hmis hk4]
    omega
  · rw [mainAddr_add_within hmis hk4]
    exact hibus k hk4

/-- A plain word can be stored. -/
theorem storesToMemory_of_plain {s : State} {a : Word} (h : PlainWordAt s a) : StoresToMemory s .word a := by
  obtain ⟨hmis, htcip, hplatform, herrors, hibus⟩ := h
  exact ⟨hmis, htcip, hibus 0 (by omega), response_unmapped hplatform herrors _ _⟩

/-- The address of a small non-negative offset. -/
theorem effAddr_small (s : State) (rs1 : Reg) {k : Nat} (hk : k < 4) :
    effAddr s rs1 (BitVec.ofNat 12 k) = s.x rs1 + BitVec.ofNat 32 k := by
  have hext : ∀ j : Fin 4, sext12 (BitVec.ofNat 12 j.val) = BitVec.ofNat 32 j.val := by decide
  rw [effAddr, hext ⟨k, hk⟩]

/-- A load of a naturally aligned part of a plain word that holds `v` reads that part of `v`, extended. -/
theorem writes_part_of_word {i : Instr} {s : State} {rd rs1 : Reg} {w : Width} {k : Nat} {v value : Word}
    {ext : Word → Word} (hi : exec i s = loadTo s 4 w rd (effAddr s rs1 (BitVec.ofNat 12 k)) ext)
    (hplain : PlainWordAt s (s.x rs1)) (hv : HoldsBytes s (mainAddr (s.x rs1)) 4 v) (hk : k + w.bytes ≤ 4)
    (hw : k % w.bytes = 0) (hext : ext (BitVec.ofNat 32 (v.toNat / 2 ^ (8 * k) % 2 ^ (8 * w.bytes))) = value) :
    Writes i s rd value 4 := by
  have hk4 : k < 4 := by cases w <;> simp only [Width.bytes] at hk <;> omega
  rw [effAddr_small s rs1 hk4] at hi
  have hload := writes_of_loadTo hi (loadsFromMemory_within hplain hk hw)
  rwa [mainAddr_add_within hplain.1 hk4, read_eq_leValue, leValue_of_bytes _ _ fun j hj => hv j (by omega), hext] at hload

theorem zextByte_ofNat {n : Nat} (h : n < 2 ^ 8) : zextByte (BitVec.ofNat 32 n) = BitVec.ofNat 32 n := by
  refine BitVec.eq_of_toNat_eq ?_
  simp only [zextByte, BitVec.toNat_setWidth, BitVec.extractLsb'_toNat, BitVec.toNat_ofNat, Nat.shiftRight_zero]
  omega

theorem zextHalf_ofNat {n : Nat} (h : n < 2 ^ 16) : zextHalf (BitVec.ofNat 32 n) = BitVec.ofNat 32 n := by
  refine BitVec.eq_of_toNat_eq ?_
  simp only [zextHalf, BitVec.toNat_setWidth, BitVec.extractLsb'_toNat, BitVec.toNat_ofNat, Nat.shiftRight_zero]
  omega

/-- Settles O25: the order of the bytes in memory, then SW leaves the bytes of x5, of which each load reads its part. -/
theorem memoryIsLittleEndian : Obligations.MemoryIsLittleEndian := by
  refine ⟨read_eq_leValue, fun m w a v hm k hk => readByte_write_same hm.1 w a v hk, ?_⟩
  intro s hm hmis htcip hplatform herrors hibus
  have hplain : PlainWordAt s (s.x 6) := ⟨hmis, htcip, hplatform, herrors, hibus⟩
  have hsw : exec (.sw 5 6 0) s = storeFrom s 4 .word (s.x 6) (s.x 5) := by
    rw [← BitVec.add_zero (s.x 6)]
    rfl
  obtain ⟨t, ht, hbytes, _, hregs, _, _, ⟨hcfg, _, _, _, _, _, _, hpins, _⟩, _⟩ :=
    stores_of_storeFrom hsw (storesToMemory_of_plain hplain) hm
  rw [← hregs 6 (by simp)] at hplain hbytes
  have hplain : PlainWordAt t (t.x 6) := plainWordAt_congr hcfg hpins hplain
  refine ⟨t, ht, fun k hk => ?_, fun k hk => ?_, ?_⟩
  · exact writes_part_of_word rfl hplain hbytes (show k + 1 ≤ 4 by omega) (Nat.mod_one k)
      (zextByte_ofNat (Nat.mod_lt _ (by decide)))
  · rw [show 16 * k = 8 * (2 * k) by omega]
    exact writes_part_of_word rfl hplain hbytes (show 2 * k + 2 ≤ 4 by omega) (Nat.mul_mod_right 2 k)
      (zextHalf_ofNat (Nat.mod_lt _ (by decide)))
  · refine writes_part_of_word (k := 0) rfl hplain hbytes (by decide) (by decide) ?_
    exact BitVec.eq_of_toNat_eq (by simpa [Width.bytes] using (s.x 5).isLt)

end Sys2Proof.Machine
end

section
/-!
A step runs the decoded instruction: what the two parcels of a fetch are, and when decoding needs the second one
(20_memory.md R108, R110, 30_encoding.md R141).
-/

namespace Sys2Proof.Machine

/-! ## The parcels of a fetch -/

theorem fetchMain_parcel {s : State} {a : Nat} (h : ParcelFetchable s a) :
    fetchMain s .half a = .ok (Memory.read s.mem .half a) := by
  obtain ⟨hmemory, hstale⟩ := h
  simp [fetchMain, hmemory, Width.bytes, hstale]

theorem fetchMain_error {s : State} {a : Nat} (h : response s .fetch a = .error) (w : Width) : fetchMain s w a = .exc 1 := by
  simp [fetchMain, h]

theorem toNat_read_half (m : List Host.Cell) (a : Nat) :
    (Memory.read m .half a).toNat = parcel (Memory.readByte m a) (Memory.readByte m (a + 1)) := by
  simp only [Memory.read, BitVec.toNat_setWidth, toNat_append_eq_add, parcel]
  omega

theorem parcelBytes_read_half (m : List Host.Cell) (a : Nat) :
    parcelBytes (Memory.read m .half a) = [Memory.readByte m a, Memory.readByte m (a + 1)] := by
  simp only [parcelBytes, Memory.read]
  rw [BitVec.extractLsb'_setWidth_of_le (by omega), BitVec.extractLsb'_setWidth_of_le (by omega),
    BitVec.extractLsb'_append_eq_right, BitVec.extractLsb'_append_eq_of_le (Nat.le_refl 8), Nat.sub_self,
    BitVec.extractLsb'_eq_self]

/-- A parcel that begins no 32-bit instruction decides alone what its bytes decode to (R141). -/
theorem decode_of_not_wide {b₀ b₁ : Byte} (h : isWide (parcel b₀ b₁) = false) (l : List Byte) :
    decode (b₀ :: b₁ :: l) = decode [b₀, b₁] := by
  by_cases h3 : parcel b₀ b₁ % 4 = 3
  · have h31 : parcel b₀ b₁ % 32 = 31 := by simpa [isWide, h3] using h
    simp only [decode, h31, if_true]
  · simp only [decode, ne_eq, h3, not_false_eq_true, if_true]

/-! ## The fetch of an instruction -/

/-- Where the instruction at the pc can be fetched, the fetch gives what the bytes there decode to. -/
theorem fetchInstr_of_canFetch {s : State} (h : CanFetch s) : fetchInstr s = .ok (decode (fetchBytes s)) := by
  obtain ⟨htcip, hfirst, hsecond⟩ := h
  by_cases hwide : WideAtPc s
  · have hw : isWide (parcel _ _) = true := hwide
    simp [fetchInstr, htcip, fetchMain_parcel hfirst, fetchMain_parcel (hsecond hwide), toNat_read_half, hw,
      parcelBytes_read_half, fetchBytes]
  · have hw : isWide (parcel _ _) = false := Bool.eq_false_iff.mpr hwide
    simp [fetchInstr, htcip, fetchMain_parcel hfirst, toNat_read_half, hw, parcelBytes_read_half, fetchBytes,
      decode_of_not_wide hw]

/-- Where the bus answers the fetch of a parcel with ERROR, the fetch raises exception 1. -/
theorem fetchInstr_of_fetchError {s : State} (h : FetchError s) : fetchInstr s = .exc 1 := by
  obtain ⟨htcip, herror | ⟨hfirst, hwide, herror⟩⟩ := h
  · simp [fetchInstr, htcip, fetchMain_error herror]
  · have hw : isWide (parcel _ _) = true := hwide
    simp [fetchInstr, htcip, fetchMain_parcel hfirst, toNat_read_half, hw, fetchMain_error herror]

/-! ## The run of an instruction -/

theorem runInstr_of_decode_ok {s : State} {i : Instr} (h : CanFetch s) (hi : decode (fetchBytes s) = .ok i) :
    runInstr s = exec i s := by
  rw [runInstr, fetchInstr_of_canFetch h, hi, Res.elim]

theorem runInstr_of_decode_error {s : State} {e : Reject} (h : CanFetch s) (he : decode (fetchBytes s) = .error e) :
    runInstr s = execReject s e := by
  rw [runInstr, fetchInstr_of_canFetch h, he, Res.elim]

theorem runInstr_of_fetchError {s : State} (h : FetchError s) : runInstr s = .next (raise s 1) := by
  rw [runInstr, fetchInstr_of_fetchError h, Res.elim]

/-- A hart that is awake stays as it is. -/
theorem wake_of_awake {s : State} (h : s.sleeping = false) : wake s = s := by
  rw [wake, ← h]

/-- Sampling the inputs leaves the bytes at the pc. -/
theorem fetchBytes_sample (s : State) (i : StepInput) : fetchBytes (sample s i) = fetchBytes s := rfl

/-- Settles O53: a quiet step runs the instruction at the pc of the sampled state, and the fetch there gives what its bytes
decode to, or exception 1. -/
theorem stepRunsTheDecodedInstruction : Obligations.StepRunsTheDecodedInstruction := by
  intro s hquiet
  have hawake : (sample s (nextInput s)).sleeping = false := hquiet.2
  have hstep : step s = afterInstr (runInstr (sample s (nextInput s))) := by
    rw [step_quiet hquiet, wake_of_awake hawake]
  refine ⟨fun hfetch => ⟨fun i hi => ?_, fun e he => ?_⟩, fun herror => ?_⟩
  · rw [hstep, runInstr_of_decode_ok hfetch (by rwa [fetchBytes_sample])]
  · rw [hstep, runInstr_of_decode_error hfetch (by rwa [fetchBytes_sample])]
  · rw [hstep, runInstr_of_fetchError herror]

end Sys2Proof.Machine
end

section
/-!
No step changes the build, and the step counter advances by the sampling of the inputs alone: what every shared operation of
the meanings keeps, then every instruction, every debugger command, and every way a step can go.
-/

namespace Sys2Proof.Machine

/-- `t` runs the build of `s`, in the same step. -/
def SameBuild (s t : State) : Prop := t.cfg = s.cfg ∧ t.tick = s.tick

/-- Whatever state the answer holds runs the build of `s`, in the same step. -/
def KeepsBuild (s : State) : Out → Prop
  | .next t => SameBuild s t
  | .fault _ => True
  | .refused _ => True

theorem keepsBuild_next {s t : State} (h : SameBuild s t) : KeepsBuild s (.next t) := h

theorem sameBuild_refl (s : State) : SameBuild s s := ⟨rfl, rfl⟩

theorem SameBuild.trans {s t u : State} (h : SameBuild s t) (h' : SameBuild t u) : SameBuild s u :=
  ⟨h'.1.trans h.1, h'.2.trans h.2⟩

theorem KeepsBuild.trans {s t : State} {o : Out} (h : SameBuild s t) (h' : KeepsBuild t o) : KeepsBuild s o := by
  cases o with
  | next u => exact SameBuild.trans h h'
  | fault f => trivial
  | refused r => trivial

/-! ## Updates of the state -/

theorem sameBuild_retireTo (s : State) (v : Word) : SameBuild s (s.retireTo v) := ⟨by simp, by simp⟩

theorem sameBuild_retire (s : State) (n : Word) : SameBuild s (s.retire n) := ⟨by simp, by simp⟩

theorem sameBuild_setX (s : State) (r : Reg) (v : Word) : SameBuild s (s.setX r v) := ⟨by simp, by simp⟩

theorem sameBuild_raise (s : State) (code : Nat) : SameBuild s (raise s code) := ⟨by simp, by simp⟩

theorem sameBuild_enterException (s : State) (code : Nat) : SameBuild s (enterException s code) := ⟨by simp, by simp⟩

theorem sameBuild_breakpointInstruction (s : State) : SameBuild s (breakpointInstruction s) := by
  unfold breakpointInstruction
  split
  · exact ⟨rfl, rfl⟩
  · exact sameBuild_enterException s 3

theorem sameBuild_csrWrite (s : State) (c : CsrName) (v : Word) : SameBuild s (csrWrite s c v) := by
  obtain ⟨hcfg, _, _, _, _, _, _, _, _, _, _, _, htick⟩ := csrWrite_frame s c v
  exact ⟨hcfg, htick⟩

theorem sameBuild_retireCsr (s t : State) (c : CsrName) : SameBuild t (retireCsr s t c) := by
  obtain ⟨hcfg, _, _, _, _, _, _, _, _, _, _, _, _, htick⟩ := retireCsr_frame s t c
  exact ⟨hcfg, htick⟩

/-! ## Data accesses -/

theorem sameBuild_of_tcipWrite {s t : State} {w : Width} {a : Nat} {v : Word} (h : tcipWrite s w a v = .ok t) :
    SameBuild s t := by
  obtain ⟨c, rfl⟩ := tcipWrite_ok h
  exact ⟨rfl, rfl⟩

theorem sameBuild_of_loadMem {s t : State} {w : Width} {a v : Word} (h : loadMem s w a = .ok (v, t)) : SameBuild s t := by
  rw [loadMem_frame h]
  exact ⟨rfl, rfl⟩

theorem sameBuild_of_storeMem {s t : State} {w : Width} {a v : Word} (h : storeMem s w a v = .ok t) : SameBuild s t := by
  rcases storeMem_ok h with ⟨_, rfl⟩ | ⟨_, rfl⟩ | ⟨_, _, ht⟩
  · exact ⟨rfl, rfl⟩
  · exact ⟨rfl, rfl⟩
  · exact sameBuild_of_tcipWrite ht

/-- A vector table read only asks a device. -/
theorem sameBuild_of_loadVector {s t : State} {a v : Word} (h : loadVector s a = .ok (v, t)) : SameBuild s t := by
  unfold loadVector at h
  split at h
  · cases h
  · split at h
    · cases h
    · split at h
      · cases h
      · split at h <;> cases h <;> exact ⟨rfl, rfl⟩

/-! ## How an instruction ends -/

theorem keepsBuild_ite {p : Prop} [Decidable p] {s : State} {k k' : Out} (h : KeepsBuild s k) (h' : KeepsBuild s k') :
    KeepsBuild s (if p then k else k') := by
  split
  · exact h
  · exact h'

theorem keepsBuild_elim {α : Type} {s : State} {r : Res α} {k : α → Out} (h : ∀ v, r = .ok v → KeepsBuild s (k v)) :
    KeepsBuild s (r.elim s k) := by
  cases r with
  | ok v => exact h v rfl
  | exc code => exact sameBuild_raise s code
  | fault f => trivial
  | refused r => trivial

theorem keepsBuild_writeTo (s : State) (len : Word) (rd : Reg) (v : Word) : KeepsBuild s (writeTo s len rd v) :=
  (sameBuild_setX s rd v).trans (sameBuild_retire _ len)

theorem keepsBuild_jumpLink (s : State) (len : Word) (rd : Reg) (v : Word) : KeepsBuild s (jumpLink s len rd v) :=
  (sameBuild_setX s rd _).trans (sameBuild_retireTo _ v)

theorem keepsBuild_branchTo (s : State) (len : Word) (taken : Bool) (off : Word) : KeepsBuild s (branchTo s len taken off) := by
  cases taken
  · exact sameBuild_retire s len
  · exact sameBuild_retireTo s _

theorem keepsBuild_gated (b : Bool) {s : State} {k : Out} (h : KeepsBuild s k) : KeepsBuild s (gated b s k) :=
  keepsBuild_ite h (sameBuild_raise s 2)

theorem keepsBuild_gated_writeTo (b : Bool) (s : State) (len : Word) (rd : Reg) (v : Word) :
    KeepsBuild s (gated b s (writeTo s len rd v)) :=
  keepsBuild_gated b (keepsBuild_writeTo s len rd v)

theorem keepsBuild_loadTo (s : State) (len : Word) (w : Width) (rd : Reg) (a : Word) (ext : Word → Word) :
    KeepsBuild s (loadTo s len w rd a ext) :=
  keepsBuild_elim fun r hr => KeepsBuild.trans (sameBuild_of_loadMem (t := r.2) hr) (keepsBuild_writeTo r.2 len rd (ext r.1))

theorem keepsBuild_storeFrom (s : State) (len : Word) (w : Width) (a v : Word) : KeepsBuild s (storeFrom s len w a v) :=
  keepsBuild_elim fun t ht => (sameBuild_of_storeMem ht).trans (sameBuild_retire t len)

/-! ## CSR and coprocessor instructions -/

theorem keepsBuild_csrModify {s : State} {f : CsrName → Word → State} (hf : ∀ c w, ∃ v, f c w = csrWrite s c v)
    (rd : Reg) (n : BitVec 12) : KeepsBuild s (csrModify s rd n f) := by
  unfold csrModify
  split
  · exact sameBuild_raise s 2
  · trivial
  · exact keepsBuild_writeTo s 4 rd _
  · rename_i c _
    obtain ⟨v, hv⟩ := hf c (csrRead s c)
    rw [hv]
    exact ((sameBuild_csrWrite s c v).trans (sameBuild_setX _ rd _)).trans (sameBuild_retireCsr s _ c)

theorem keepsBuild_csrFetch (s : State) (rd : Reg) (n : BitVec 12) : KeepsBuild s (csrFetch s rd n) := by
  unfold csrFetch
  split
  · exact sameBuild_raise s 2
  · trivial
  · exact keepsBuild_writeTo s 4 rd _
  · exact keepsBuild_writeTo s 4 rd _

theorem keepsBuild_notSwap (n : BitVec 12) {s : State} {k : Out} (h : KeepsBuild s k) : KeepsBuild s (notSwap n k) :=
  keepsBuild_ite trivial h

/-- CSRRS, CSRRC and their immediate forms: they only read where `p` holds, and write one value otherwise. -/
theorem keepsBuild_csrForm {p : Prop} [Decidable p] {s : State} {f : CsrName → Word → State}
    (hf : ∀ c w, ∃ v, f c w = csrWrite s c v) (rd : Reg) (n : BitVec 12) :
    KeepsBuild s (notSwap n (if p then csrFetch s rd n else csrModify s rd n f)) :=
  keepsBuild_notSwap n (keepsBuild_ite (keepsBuild_csrFetch s rd n) (keepsBuild_csrModify hf rd n))

theorem keepsBuild_copSend (s : State) (q : CopReq) : KeepsBuild s (copSend s q) :=
  keepsBuild_gated _ (sameBuild_retire { s with cop := q :: s.cop } 4)

theorem keepsBuild_copCall (s : State) (rd : Reg) (q : CopReq) : KeepsBuild s (copCall s rd q) :=
  keepsBuild_gated _ (keepsBuild_writeTo { s with cop := q :: s.cop } 4 rd _)

/-! ## Zcmp and Zcmt -/

/-- Whatever state the run of the stack accesses holds runs the build of `s`, in the same step. -/
def StackRun.KeepsBuild (s : State) : StackRun → Prop
  | .done t => SameBuild s t
  | .exc _ t => SameBuild s t
  | .fault _ => True
  | .refused _ => True

theorem sameBuild_keepStore (kept : State) (tick k : Nat) (a v : Word) : SameBuild kept (keepStore kept tick k a v) := by
  unfold keepStore
  split
  · split
    · rename_i t ht
      exact sameBuild_of_storeMem ht
    · exact sameBuild_refl kept
  · exact sameBuild_refl kept

theorem sameBuild_keepLoad (kept cur : State) (k : Nat) (r : Reg) (v : Word) : SameBuild kept (keepLoad kept cur k r v) := by
  unfold keepLoad
  split
  · exact sameBuild_setX { kept with devices := cur.devices } r v
  · exact ⟨rfl, rfl⟩

theorem keepsBuild_pushRun (src : State) (l : List Reg) (a : Word) (k : Nat) {s kept cur : State}
    (hkept : SameBuild s kept) (hcur : SameBuild s cur) : (pushRun src l a k kept cur).KeepsBuild s := by
  induction l generalizing a k kept cur with
  | nil => exact hcur
  | cons r l ih =>
    rw [pushRun]
    split
    · rename_i t ht
      exact ih _ _ (hkept.trans (sameBuild_keepStore ..)) (hcur.trans (sameBuild_of_storeMem ht))
    · exact hkept
    · trivial
    · trivial

theorem keepsBuild_popRun (l : List Reg) (a : Word) (k : Nat) {s kept cur : State} (hkept : SameBuild s kept)
    (hcur : SameBuild s cur) : (popRun l a k kept cur).KeepsBuild s := by
  induction l generalizing a k kept cur with
  | nil => exact hcur
  | cons r l ih =>
    rw [popRun]
    split
    · rename_i v t ht
      exact ih _ _ (hkept.trans (sameBuild_keepLoad ..)) ((hcur.trans (sameBuild_of_loadMem ht)).trans (sameBuild_setX ..))
    · exact hkept
    · trivial
    · trivial

theorem keepsBuild_stackElim {s : State} {r : StackRun} {k : State → Out} (hr : r.KeepsBuild s)
    (hk : ∀ t, KeepsBuild t (k t)) : KeepsBuild s (r.elim k) := by
  cases r with
  | done t => exact KeepsBuild.trans hr (hk t)
  | exc code kept => exact SameBuild.trans hr (sameBuild_raise kept code)
  | fault f => trivial
  | refused r => trivial

theorem keepsBuild_stackGuard {s : State} {k : Out} (h : KeepsBuild s k) (code : Nat) (a : Word) (n : Nat) :
    KeepsBuild s (stackGuard s code a n k) :=
  keepsBuild_ite (sameBuild_raise s code) (keepsBuild_ite trivial h)

theorem keepsBuild_popThen (s : State) (l : RegList) (spimm : BitVec 2) {k : State → Out} (hk : ∀ t, KeepsBuild t (k t)) :
    KeepsBuild s (popThen s l spimm k) :=
  keepsBuild_stackGuard
    (keepsBuild_stackElim (keepsBuild_popRun _ _ _ (sameBuild_refl s) (sameBuild_refl s)) fun t =>
      KeepsBuild.trans (sameBuild_setX t ..) (hk _)) ..

theorem keepsBuild_cmPush (l : RegList) (spimm : BitVec 2) (s : State) : KeepsBuild s (execCmPush l spimm s) :=
  keepsBuild_stackGuard
    (keepsBuild_stackElim (keepsBuild_pushRun s _ _ _ (sameBuild_refl s) (sameBuild_refl s)) fun t =>
      keepsBuild_writeTo t 2 spReg _) ..

theorem keepsBuild_cmPop (l : RegList) (spimm : BitVec 2) (s : State) : KeepsBuild s (execCmPop l spimm s) :=
  keepsBuild_popThen s l spimm fun t => keepsBuild_next (sameBuild_retire t 2)

theorem keepsBuild_cmPopretz (l : RegList) (spimm : BitVec 2) (s : State) : KeepsBuild s (execCmPopretz l spimm s) :=
  keepsBuild_popThen s l spimm fun t =>
    keepsBuild_next ((sameBuild_setX t 10 0).trans (sameBuild_retireTo _ (clearBit0 (t.x raReg))))

theorem keepsBuild_cmPopret (l : RegList) (spimm : BitVec 2) (s : State) : KeepsBuild s (execCmPopret l spimm s) :=
  keepsBuild_popThen s l spimm fun t => keepsBuild_next (sameBuild_retireTo t (clearBit0 (t.x raReg)))

/-! ## Every instruction -/

theorem keepsBuild_exec (i : Instr) (s : State) : KeepsBuild s (exec i s) := by
  cases i
  case add | addi | and | andi | auipc | lui | or | ori | sll | slli | slt | slti | sltiu | sltu | sra | srai | srl | srli |
      sub | xor | xori | cAdd | cAddi | cAddi4spn | cAddi16sp | cAnd | cAndi | cLi | cLui | cMv | cOr | cSlli | cSrai |
      cSrli | cSub | cXor | cZextB | cNot => exact keepsBuild_writeTo ..
  case mul | mulh | mulhsu | mulhu | sh1add | sh2add | sh3add | andn | orn | xnor | clz | ctz | cpop | max | maxu | min |
      minu | sextB | sextH | zextH | rol | ror | rori | orcB | rev8 | bclr | bclri | bext | bexti | binv | binvi | bset |
      bseti | cSextB | cZextH | cSextH | cMul => exact keepsBuild_gated_writeTo ..
  case beq | bge | bgeu | blt | bltu | bne | cBeqz | cBnez => exact keepsBuild_branchTo ..
  case jal | jalr | cJal | cJalr => exact keepsBuild_jumpLink ..
  case lb | lbu | lh | lhu | lw | cLw | cLwsp | cLbu | cLhu | cLh => exact keepsBuild_loadTo ..
  case sb | sh | sw | cSw | cSwsp | cSb | cSh => exact keepsBuild_storeFrom ..
  case csrrw => exact keepsBuild_csrModify (fun _ _ => ⟨_, rfl⟩) ..
  case csrrs | csrrc | csrrsi | csrrci => exact keepsBuild_csrForm (fun _ _ => ⟨_, rfl⟩) ..
  case csrrwi rd imm n => exact keepsBuild_notSwap n (keepsBuild_csrModify (csrWriteImm_is_csrWrite s imm) rd n)
  case cpx0 | cpx1 | cpx4 | cpx5 => exact keepsBuild_copSend ..
  case cpx2 | cpx3 | cpx6 | cpx9 => exact keepsBuild_copCall ..
  case fence | cNop => exact sameBuild_retire ..
  case fenceI => exact sameBuild_retire { s with stale := [] } 4
  case wfi => exact sameBuild_retire s 4
  case ecall => exact sameBuild_enterException ..
  case ebreak | cEbreak => exact sameBuild_breakpointInstruction ..
  case mret => exact sameBuild_retireTo (returnFromTrap s) _
  case cJ | cJr => exact sameBuild_retireTo ..
  case cmPush => exact keepsBuild_cmPush ..
  case cmPop => exact keepsBuild_cmPop ..
  case cmPopretz => exact keepsBuild_cmPopretz ..
  case cmPopret => exact keepsBuild_cmPopret ..
  case cmMvsa01 | cmMva01s =>
    exact ((sameBuild_setX s _ _).trans (sameBuild_setX _ _ _)).trans (sameBuild_retire _ 2)
  case cmJt => exact keepsBuild_elim fun _ _ => sameBuild_retireTo s _
  case cmJalt => exact keepsBuild_elim fun _ _ => keepsBuild_jumpLink ..

theorem keepsBuild_execReject (s : State) (e : Reject) : KeepsBuild s (execReject s e) := by
  cases e
  case illegal | truncated => exact sameBuild_raise s 2
  case unsettled => trivial
  case custom => exact keepsBuild_ite trivial (sameBuild_raise s 2)
  case cpxReserved => exact keepsBuild_ite trivial (sameBuild_raise s 2)

theorem keepsBuild_runInstr (s : State) : KeepsBuild s (runInstr s) :=
  keepsBuild_elim fun d _ => by
    cases d with
    | ok i => exact keepsBuild_exec i s
    | error e => exact keepsBuild_execReject s e

/-! ## The debugger (60_exceptions.md R465 to R470) -/

/-- Whatever state an instruction the debugger supplied leaves runs the build of `s`, in the same step. -/
def DebugRun.KeepsBuild (s : State) : DebugRun → Prop
  | .ran t => SameBuild s t
  | .ended t => SameBuild s t
  | .fault _ => True
  | .refused _ => True

theorem sameBuild_debugWriteCsr (s : State) (c : CsrName) (v : Word) : SameBuild s (debugWriteCsr s c v) := by
  unfold debugWriteCsr
  split
  case h_4 => exact sameBuild_csrWrite ..
  all_goals
    split
    · exact sameBuild_csrWrite ..
    · exact sameBuild_refl s

theorem keepsBuild_debugWriteMem (s : State) (w : Width) (a v : Word) : KeepsBuild s (debugWriteMem s w a v) := by
  unfold debugWriteMem
  split
  · exact sameBuild_refl s
  · split
    · split
      · rename_i t ht
        exact sameBuild_of_tcipWrite ht
      · exact sameBuild_refl s
      · trivial
      · trivial
    · split <;> exact ⟨rfl, rfl⟩

theorem sameBuild_debugReadMem (s : State) (w : Width) (a : Word) : SameBuild s (debugReadMem s w a) := by
  unfold debugReadMem
  split <;> exact ⟨rfl, rfl⟩

theorem keepsBuild_debugExec (s : State) (i : Instr) : (debugExec s i).KeepsBuild s := by
  have hexec := keepsBuild_exec i s
  unfold debugExec
  split
  · exact sameBuild_refl s
  · split
    · trivial
    · split
      · rename_i t ht
        rw [ht] at hexec
        split <;> exact hexec
      · trivial
      · trivial

theorem keepsBuild_debugReject (s : State) (e : Reject) : KeepsBuild s (debugReject s e) := by
  unfold debugReject
  split
  case h_1 => trivial
  all_goals
    split
    · exact sameBuild_refl s
    · trivial
    · trivial

/-- By induction on the number of instructions the supplied bytes may still hold. -/
theorem keepsBuild_debugRun (n : Nat) (s : State) (l : List Byte) : KeepsBuild s (debugRun n s l) := by
  induction n generalizing s l with
  | zero => exact sameBuild_refl s
  | succ n ih =>
    unfold debugRun
    split
    · exact sameBuild_refl s
    · split
      · exact keepsBuild_debugReject ..
      · rename_i i _
        have hrun := keepsBuild_debugExec s i
        split
        · rename_i t ht
          rw [ht] at hrun
          exact KeepsBuild.trans hrun (ih ..)
        · rename_i t ht
          rw [ht] at hrun
          exact hrun
        · trivial
        · trivial

theorem keepsBuild_debugCommand (s : State) (c : DebugCommand) : KeepsBuild s (debugCommand s c) := by
  cases c with
  | writeGpr r v => exact sameBuild_setX s r v
  | writeCsr c v => exact sameBuild_debugWriteCsr s c v
  | writeMem w a v => exact keepsBuild_debugWriteMem s w a v
  | readMem w a => exact sameBuild_debugReadMem s w a
  | progbuf w0 w1 => exact keepsBuild_debugRun ..
  | itr w => exact keepsBuild_debugRun ..
  | resume => exact ⟨rfl, rfl⟩

/-! ## Interrupts, resets and the step -/

theorem sameBuild_acknowledge (s : State) (id : Nat) : SameBuild s (acknowledge s id) := by
  unfold acknowledge
  split <;> exact ⟨rfl, rfl⟩

theorem sameBuild_interruptEntry (s : State) (id : Nat) : SameBuild s (interruptEntry s id) := ⟨by simp, by simp⟩

theorem keepsBuild_takeInterrupt (s : State) (id : Nat) : KeepsBuild s (takeInterrupt s id) := by
  have hentry := sameBuild_interruptEntry s id
  simp only [takeInterrupt]
  split
  · split
    · rename_i v u hu
      have hread : SameBuild (interruptEntry s id) u :=
        sameBuild_of_loadVector (s := setMinhv (interruptEntry s id) true) hu
      exact (hentry.trans hread).trans (sameBuild_acknowledge (setMinhv u false) id)
    · trivial
    · trivial
    · trivial
  · exact hentry

theorem sameBuild_platformReset (s : State) (r : PlatformReset) (halt : Bool) : SameBuild s (platformReset s r halt) := by
  cases r <;> simp only [platformReset] <;> split <;> exact ⟨by simp, by simp⟩

theorem sameBuild_stepDone (s : State) : SameBuild s (stepDone s) := by
  unfold stepDone
  split <;> exact ⟨rfl, rfl⟩

theorem keepsBuild_afterInstr {s : State} {o : Out} (h : KeepsBuild s o) : KeepsBuild s (afterInstr o) := by
  cases o with
  | next t => exact SameBuild.trans h (sameBuild_stepDone t)
  | fault f => trivial
  | refused r => trivial

theorem keepsBuild_stepFrom (s : State) (b : Boundary) : KeepsBuild s (stepFrom s b) := by
  cases b with
  | run => exact keepsBuild_afterInstr (keepsBuild_runInstr (wake s))
  | stay => exact sameBuild_refl s
  | command c => exact keepsBuild_debugCommand s c
  | halt cause haltcause => exact ⟨rfl, rfl⟩
  | interrupt id => exact keepsBuild_takeInterrupt s id
  | breakpoint => exact sameBuild_raise (wake s) 3
  | reset r halt => exact sameBuild_platformReset s r halt
  | fault f => trivial
  | refused r => trivial

/-- Settles O56: what follows the sampling of the inputs keeps the build and the step, and the sampling begins one. -/
theorem everyStepKeepsTheBuild : Obligations.EveryStepKeepsTheBuild := by
  refine ⟨fun s t h => ?_, fun s h => step_illegalBuild h⟩
  have hkeeps : KeepsBuild (sample s (nextInput s)) (step s) := keepsBuild_stepFrom _ _
  rw [h] at hkeeps
  exact hkeeps

end Sys2Proof.Machine
end

section
/-!
The 32-bit formats: which format the decoder reads a word in, by its opcode and function fields (30_encoding.md R142 to
R154), and what the format makes of the word.
-/

namespace Sys2Proof.Machine

/-- The low seven bits of a 32-bit instruction (30_encoding.md R141). -/
abbrev WideOpcode (op : Nat) : Prop := op < 2 ^ 7 ∧ op % 4 = 3 ∧ op % 32 ≠ 31

theorem mod_four_of_opcode {w op : Nat} (hop : WideOpcode op) (h : field w 0 7 = op) : w % 4 = 3 := by
  obtain ⟨_, h3, _⟩ := hop
  simp only [field] at h
  omega

theorem mod_thirtyTwo_of_opcode {w op : Nat} (hop : WideOpcode op) (h : field w 0 7 = op) : w % 32 ≠ 31 := by
  obtain ⟨_, _, h31⟩ := hop
  simp only [field] at h
  omega

/-- A table word of a 32-bit opcode is what the 32-bit decoder reads. -/
theorem decodeTableWord_of_opcode {w op : Nat} {i : Instr} (hw : w < 2 ^ 32) (hop : WideOpcode op) (h : field w 0 7 = op)
    (hi : decode32 w = .ok i) : decodeTableWord 32 w = some i :=
  decodeTableWord_wide hw (mod_four_of_opcode hop h) (mod_thirtyTwo_of_opcode hop h) hi

/-! ## Which words a format reads -/

/-- Words of this opcode and funct3 are read as I format (R144). -/
def ReadsI (f3 op : Nat) (k : Reg → Reg → BitVec 12 → Instr) : Prop :=
  ∀ w, field w 0 7 = op → field w 12 3 = f3 → decode32 w = decI w k

/-- Words of this funct3 on opcode 1100011 are read as B format (R147). -/
def ReadsB (f3 : Nat) (k : Reg → Reg → BitVec 12 → Instr) : Prop :=
  ∀ w, field w 0 7 = 0b1100011 → field w 12 3 = f3 → decode32 w = decB w k

/-- Words of this opcode are read as U format (R148). -/
def ReadsU (op : Nat) (k : Reg → BitVec 20 → Instr) : Prop := ∀ w, field w 0 7 = op → decode32 w = decU w k

/-- Words of this funct3 on opcode 1110011 are read as CSR format with an immediate source (R150). -/
def ReadsCsrImm (f3 : Nat) (k : Reg → BitVec 5 → BitVec 12 → Instr) : Prop :=
  ∀ w, field w 0 7 = 0b1110011 → field w 12 3 = f3 → decode32 w = decCsrImm w k

theorem encodedI_of_reads {f3 op : Nat} {k : Reg → Reg → BitVec 12 → Instr} (hop : WideOpcode op) (hk : ReadsI f3 op k) :
    EncodedI f3 op k := fun w hw rd rs1 imm h0 h3 hrd hrs1 himm => by
  refine decodeTableWord_of_opcode hw hop h0 ?_
  rw [hk w h0 h3, decI, hrd, hrs1, himm, withReg_val, withReg_val, BitVec.ofNat_toNat, BitVec.setWidth_eq]

theorem encodedU_of_reads {op : Nat} {k : Reg → BitVec 20 → Instr} (hop : WideOpcode op) (hk : ReadsU op k) :
    EncodedU op k := fun w hw rd imm h0 hrd himm => by
  refine decodeTableWord_of_opcode hw hop h0 ?_
  rw [hk w h0, decU, hrd, himm, withReg_val, BitVec.ofNat_toNat, BitVec.setWidth_eq]

theorem encodedCsrImm_of_reads {f3 : Nat} {k : Reg → BitVec 5 → BitVec 12 → Instr} (hk : ReadsCsrImm f3 k) :
    EncodedCsrImm f3 k := fun w hw rd imm csr h0 h3 hrd himm hcsr => by
  refine decodeTableWord_of_opcode hw (by decide) h0 ?_
  rw [hk w h0 h3, decCsrImm, hrd, himm, hcsr, withReg_val, BitVec.ofNat_toNat, BitVec.ofNat_toNat, BitVec.setWidth_eq,
    BitVec.setWidth_eq]

/-- The pieces of a branch's immediate make it up. -/
theorem branchFields_sum (imm : BitVec 12) :
    field imm.toNat 11 1 * 2 ^ 11 + field imm.toNat 10 1 * 2 ^ 10 + field imm.toNat 4 6 * 2 ^ 4 + field imm.toNat 0 4 =
      imm.toNat := by
  have := imm.isLt
  simp only [field]
  omega

theorem encodedB_of_reads {f3 : Nat} {k : Reg → Reg → BitVec 12 → Instr} (hk : ReadsB f3 k) : EncodedB f3 k :=
  fun w hw rs1 rs2 imm h0 h3 hrs1 hrs2 h31 h7 h25 h8 => by
    refine decodeTableWord_of_opcode hw (by decide) h0 ?_
    rw [hk w h0 h3, decB, hrs1, hrs2, h31, h7, h25, h8, branchFields_sum, withReg_val, withReg_val, BitVec.ofNat_toNat,
      BitVec.setWidth_eq]

/-- The pieces of a jump's immediate make it up. -/
theorem jumpFields_sum (imm : BitVec 20) :
    field imm.toNat 19 1 * 2 ^ 19 + field imm.toNat 11 8 * 2 ^ 11 + field imm.toNat 10 1 * 2 ^ 10 + field imm.toNat 0 10 =
      imm.toNat := by
  have := imm.isLt
  simp only [field]
  omega

theorem encodedJ_jal : EncodedJ .jal := fun w hw rd imm h0 hrd h31 h12 h20 h21 => by
  have hread : decode32 w = decJ w .jal := by simp only [decode32, h0]
  refine decodeTableWord_of_opcode hw (by decide) h0 ?_
  rw [hread, decJ, hrd, h31, h12, h20, h21, jumpFields_sum, withReg_val, BitVec.ofNat_toNat, BitVec.setWidth_eq]

end Sys2Proof.Machine
end

section
/-!
A five-bit register field above 15 makes a word illegal (30_encoding.md R161): the formats, the decoders of the opcodes and of
the quadrants that use them, and with them every instruction that has such a field.
-/

namespace Sys2Proof

open Machine

/-! ## The formats -/

/-- A second register field above 15 is illegal, whatever the first one holds. -/
theorem withReg_of_illegal {n : Nat} {k : Reg → Except Reject Instr} (h : ∀ r, k r = .error .illegal) :
    withReg n k = .error .illegal := by
  unfold withReg
  split
  · exact h _
  · rfl

theorem decR2_high {w : Nat} (h : 16 ≤ field w 7 5 ∨ 16 ≤ field w 15 5) (k : Reg → Reg → Instr) :
    decR2 w k = .error .illegal := by
  rcases h with h | h
  · exact withReg_illegal h _
  · exact withReg_of_illegal fun rd => withReg_illegal h _

theorem decI_high {w : Nat} (h : 16 ≤ field w 7 5 ∨ 16 ≤ field w 15 5) (k : Reg → Reg → BitVec 12 → Instr) :
    decI w k = .error .illegal := by
  rcases h with h | h
  · exact withReg_illegal h _
  · exact withReg_of_illegal fun rd => withReg_illegal h _

theorem decShift_high {w : Nat} (h : 16 ≤ field w 7 5 ∨ 16 ≤ field w 15 5) (k : Reg → Reg → BitVec 5 → Instr) :
    decShift w k = .error .illegal := by
  rcases h with h | h
  · exact withReg_illegal h _
  · exact withReg_of_illegal fun rd => withReg_illegal h _

theorem decR_high {w : Nat} (h : 16 ≤ field w 7 5 ∨ 16 ≤ field w 15 5 ∨ 16 ≤ field w 20 5)
    (k : Reg → Reg → Reg → Instr) : decR w k = .error .illegal := by
  rcases h with h | h | h
  · exact withReg_illegal h _
  · exact withReg_of_illegal fun rd => withReg_illegal h _
  · exact withReg_of_illegal fun rd => withReg_of_illegal fun rs1 => withReg_illegal h _

theorem decS_high {w : Nat} (h : 16 ≤ field w 15 5 ∨ 16 ≤ field w 20 5) (k : Reg → Reg → BitVec 12 → Instr) :
    decS w k = .error .illegal := by
  rcases h with h | h
  · exact withReg_of_illegal fun rs2 => withReg_illegal h _
  · exact withReg_illegal h _

theorem decB_high {w : Nat} (h : 16 ≤ field w 15 5 ∨ 16 ≤ field w 20 5) (k : Reg → Reg → BitVec 12 → Instr) :
    decB w k = .error .illegal := by
  rcases h with h | h
  · exact withReg_illegal h _
  · exact withReg_of_illegal fun rs1 => withReg_illegal h _

/-! ## The opcodes

Each says which fields the words of its opcode hold registers in. -/

theorem decOp_high {w : Nat} (h : 16 ≤ field w 7 5 ∨ 16 ≤ field w 15 5 ∨ 16 ≤ field w 20 5) :
    decOp w = .error .illegal := by
  unfold decOp
  split
  case h_25 =>
    split
    · exact decR2_high (by omega) _
    · rfl
  case h_32 => rfl
  all_goals exact decR_high h _

theorem decShiftLeft_high {w : Nat} (h : 16 ≤ field w 7 5 ∨ 16 ≤ field w 15 5) : decShiftLeft w = .error .illegal := by
  unfold decShiftLeft
  split
  case h_2 =>
    split
    case h_6 => rfl
    all_goals exact decR2_high h _
  case h_6 => rfl
  all_goals exact decShift_high h _

theorem decShiftRight_high {w : Nat} (h : 16 ≤ field w 7 5 ∨ 16 ≤ field w 15 5) : decShiftRight w = .error .illegal := by
  unfold decShiftRight
  split
  case h_5 | h_6 =>
    split
    · exact decR2_high h _
    · rfl
  case h_7 => rfl
  all_goals exact decShift_high h _

theorem decOpImm_high {w : Nat} (h : 16 ≤ field w 7 5 ∨ 16 ≤ field w 15 5) : decOpImm w = .error .illegal := by
  unfold decOpImm
  split
  case h_2 => exact decShiftLeft_high h
  case h_6 => exact decShiftRight_high h
  all_goals exact decI_high h _

theorem decLoad_high {w : Nat} (h : 16 ≤ field w 7 5 ∨ 16 ≤ field w 15 5) : decLoad w = .error .illegal := by
  unfold decLoad
  split
  case h_6 => rfl
  all_goals exact decI_high h _

theorem decStore_high {w : Nat} (h : 16 ≤ field w 15 5 ∨ 16 ≤ field w 20 5) : decStore w = .error .illegal := by
  unfold decStore
  split
  case h_4 => rfl
  all_goals exact decS_high h _

theorem decBranch_high {w : Nat} (h : 16 ≤ field w 15 5 ∨ 16 ≤ field w 20 5) : decBranch w = .error .illegal := by
  unfold decBranch
  split
  case h_7 => rfl
  all_goals exact decB_high h _

/-- The words of funct3 000 with a meaning hold no register; the register forms of the CSR instructions have funct3
001 to 011 (R150). -/
theorem decSystem_high {w : Nat} (h : 16 ≤ field w 7 5 ∨ (1 ≤ field w 12 3 ∧ field w 12 3 ≤ 3) ∧ 16 ≤ field w 15 5) :
    decSystem w = .error .illegal := by
  by_cases h0 : field w 12 3 = 0
  · have h : 16 ≤ field w 7 5 := by omega
    refine decSystem_other h0 fun hw => ?_
    simp only [List.mem_cons, List.not_mem_nil, or_false] at hw
    rcases hw with rfl | rfl | rfl | rfl <;> exact absurd h (by decide)
  · unfold decSystem
    split
    case h_1 => contradiction
    case h_2 | h_3 | h_4 => exact decI_high (by omega) _
    case h_8 => rfl
    all_goals exact withReg_illegal (by omega) _

/-- The words of custom-2 that hold an rd (45_coprocessor.md R388, R389, R392, R393). -/
theorem decCustom2_rd_high {w : Nat} (hf : field w 12 3 = 1 ∧ field w 25 5 ≤ 2 ∨ field w 12 3 = 7)
    (h : 16 ≤ field w 7 5) : decCustom2 w = .error .illegal := by
  unfold decCustom2
  split
  case h_3 | h_4 | h_7 | h_8 => exact withReg_illegal h _
  all_goals grind

/-- Every cpx word holds an rs1 (R386 to R393). -/
theorem decCustom2_rs1_high {w : Nat}
    (hf : field w 12 3 = 0 ∧ field w 25 5 ≤ 3 ∨ field w 12 3 = 1 ∧ field w 25 5 ≤ 2 ∨ field w 12 3 = 7)
    (h : 16 ≤ field w 15 5) : decCustom2 w = .error .illegal := by
  unfold decCustom2
  split
  case h_1 | h_2 | h_5 | h_6 => exact withReg_illegal h _
  case h_3 | h_4 | h_7 | h_8 => exact withReg_of_illegal fun rd => withReg_illegal h _
  case h_9 => grind

/-- The words of custom-2 that hold an rs2 (R390 to R392). -/
theorem decCustom2_rs2_high {w : Nat}
    (hf : field w 12 3 = 0 ∧ (field w 25 5 = 2 ∨ field w 25 5 = 3) ∨ field w 12 3 = 1 ∧ field w 25 5 = 2)
    (h : 16 ≤ field w 20 5) : decCustom2 w = .error .illegal := by
  unfold decCustom2
  split
  case h_5 | h_6 => exact withReg_of_illegal fun rs1 => withReg_illegal h _
  case h_7 => exact withReg_of_illegal fun rd => withReg_of_illegal fun rs1 => withReg_illegal h _
  all_goals grind

/-! ## 16-bit parcels -/

/-- The parcels of quadrant 01 with a full register field (30_encoding.md R156). -/
theorem decQ1_high {p : Nat} (hf : field p 13 3 = 0 ∨ field p 13 3 = 2 ∨ field p 13 3 = 3) (h : 16 ≤ field p 7 5) :
    decQ1 p = .error .illegal := by
  rcases hf with hf | hf | hf <;> simp only [decQ1, hf, withReg_illegal h]

theorem decQ2_rd_high {p : Nat} (hf : field p 13 3 = 0 ∨ field p 13 3 = 2 ∨ field p 13 3 = 4) (h : 16 ≤ field p 7 5) :
    decQ2 p = .error .illegal := by
  rcases hf with hf | hf | hf <;> simp only [decQ2, hf, withReg_illegal h]

theorem decQ2_rs2_high {p : Nat} (hf : field p 13 3 = 4 ∨ field p 13 3 = 6) (h : 16 ≤ field p 2 5) :
    decQ2 p = .error .illegal := by
  rcases hf with hf | hf
  · simp only [decQ2, hf]
    exact withReg_of_illegal fun rd => withReg_illegal h _
  · simp only [decQ2, hf, withReg_illegal h]

/-! ## Instructions with a high register field -/

/-- A value with the listed bits, where they are 0, set. -/
def setBits (e : Nat) (l : List Nat) : Nat := e + (l.map fun k => 2 ^ k).sum

/-- Whatever non-empty choice of the bits is set, the instruction becomes illegal (30_encoding.md R161). -/
def RejectsHigh (i : Instr) (bits : List Nat) : Prop :=
  ∀ l : List Nat, l ≠ [] → l.Sublist bits → decode (leBytes i.length (setBits (encode i) l)) = .error .illegal

theorem rejectsHigh_nil (i : Instr) : RejectsHigh i [] := fun _ hne hl => absurd (List.sublist_nil.mp hl) hne

/-- The highest bits of register fields of a word that hold numbers below 16 change no other field. -/
theorem fields_setBits_wide {e : Nat} (he : e < 2 ^ 32) {l : List Nat} (hl : l.Sublist [11, 19, 24])
    (hlow : ∀ k ∈ l, field e (k - 4) 5 < 16) :
    setBits e l < 2 ^ 32 ∧ field (setBits e l) 0 7 = field e 0 7 ∧ field (setBits e l) 12 3 = field e 12 3 ∧
      field (setBits e l) 25 5 = field e 25 5 ∧ ∀ k ∈ l, 16 ≤ field (setBits e l) (k - 4) 5 := by
  have hmem : l ∈ [11, 19, 24].sublists := List.mem_sublists.mpr hl
  have hlist : [11, 19, 24].sublists = [[], [11], [19], [11, 19], [24], [11, 24], [19, 24], [11, 19, 24]] := by decide
  rw [hlist] at hmem
  simp only [List.mem_cons, List.not_mem_nil, or_false] at hmem
  rcases hmem with rfl | rfl | rfl | rfl | rfl | rfl | rfl | rfl
  all_goals
    simp only [setBits, field, List.mem_cons, List.not_mem_nil, or_false, forall_eq_or_imp, forall_eq, IsEmpty.forall_iff,
      implies_true, and_true, List.map_cons, List.map_nil, List.sum_cons, List.sum_nil, Nat.reduceSub] at hlow ⊢
    omega

/-- The same for the register fields of a parcel. -/
theorem fields_setBits_narrow {e : Nat} (he : e < 2 ^ 16) {l : List Nat} (hl : l.Sublist [11, 6])
    (hlow : ∀ k ∈ l, field e (k - 4) 5 < 16) :
    setBits e l < 2 ^ 16 ∧ field (setBits e l) 0 2 = field e 0 2 ∧ field (setBits e l) 13 3 = field e 13 3 ∧
      ∀ k ∈ l, 16 ≤ field (setBits e l) (k - 4) 5 := by
  have hmem : l ∈ [11, 6].sublists := List.mem_sublists.mpr hl
  have hlist : [11, 6].sublists = [[], [11], [6], [11, 6]] := by decide
  rw [hlist] at hmem
  simp only [List.mem_cons, List.not_mem_nil, or_false] at hmem
  rcases hmem with rfl | rfl | rfl | rfl
  all_goals
    simp only [setBits, field, List.mem_cons, List.not_mem_nil, or_false, forall_eq_or_imp, forall_eq, IsEmpty.forall_iff,
      implies_true, and_true, List.map_cons, List.map_nil, List.sum_cons, List.sum_nil, Nat.reduceSub] at hlow ⊢
    omega

/-- A 32-bit instruction whose opcode's decoder rejects a high register field wherever the instruction has one. -/
theorem rejectsHigh_wide {i : Instr} {bits : List Nat} {op f3 func : Nat} (hop : WideOpcode op)
    (hbits : bits.Sublist [11, 19, 24])
    (hi : encode i < 2 ^ 32 ∧ field (encode i) 0 7 = op ∧ field (encode i) 12 3 = f3 ∧ field (encode i) 25 5 = func ∧
      ∀ k ∈ bits, field (encode i) (k - 4) 5 < 16)
    (hd : ∀ w, field w 0 7 = op → field w 12 3 = f3 → field w 25 5 = func → (∃ k ∈ bits, 16 ≤ field w (k - 4) 5) →
      decode32 w = .error .illegal) : RejectsHigh i bits := by
  intro l hne hl
  obtain ⟨hlt, hop₀, hf3₀, hfunc₀, hlow⟩ := hi
  obtain ⟨hlt, hop₁, hf3₁, hfunc₁, hhigh⟩ := fields_setBits_wide hlt (hl.trans hbits) fun k hk => hlow k (hl.mem hk)
  obtain ⟨k, hk⟩ := List.exists_mem_of_ne_nil l hne
  have hop₁ := hop₁.trans hop₀
  rw [Instr.length, if_pos (mod_four_of_opcode hop hop₀),
    decode_leBytes_wide hlt (mod_four_of_opcode hop hop₁) (mod_thirtyTwo_of_opcode hop hop₁)]
  exact hd _ hop₁ (hf3₁.trans hf3₀) (hfunc₁.trans hfunc₀) ⟨k, hl.mem hk, hhigh k hk⟩

/-- A 16-bit instruction whose quadrant's decoder rejects a high register field wherever the instruction has one. -/
theorem rejectsHigh_narrow {i : Instr} {bits : List Nat} {q f3 : Nat} (hq : q ≠ 3) (hbits : bits.Sublist [11, 6])
    (hi : encode i < 2 ^ 16 ∧ field (encode i) 0 2 = q ∧ field (encode i) 13 3 = f3 ∧
      ∀ k ∈ bits, field (encode i) (k - 4) 5 < 16)
    (hd : ∀ p, field p 0 2 = q → field p 13 3 = f3 → (∃ k ∈ bits, 16 ≤ field p (k - 4) 5) →
      decode16 p = .error .illegal) : RejectsHigh i bits := by
  intro l hne hl
  obtain ⟨hlt, hq₀, hf3₀, hlow⟩ := hi
  obtain ⟨hlt, hq₁, hf3₁, hhigh⟩ := fields_setBits_narrow hlt (hl.trans hbits) fun k hk => hlow k (hl.mem hk)
  obtain ⟨k, hk⟩ := List.exists_mem_of_ne_nil l hne
  have hq₁ := hq₁.trans hq₀
  have mod_four : ∀ {p}, field p 0 2 = q → p % 4 ≠ 3 := fun {p} h => by simp only [field] at h; omega
  rw [Instr.length, if_neg (mod_four hq₀), decode_leBytes_narrow hlt (mod_four hq₁)]
  exact hd _ hq₁ (hf3₁.trans hf3₀) ⟨k, hl.mem hk, hhigh k hk⟩

/-! ## The 32-bit formats, field by field -/

theorem field_lt (w lo n : Nat) : field w lo n < 2 ^ n := Nat.mod_lt _ (Nat.two_pow_pos n)

/-- The 32-bit value with these bits [31:20], [19:15], [14:12], [11:7] and [6:0]. -/
def wordOfFields (top r15 f3 r7 op : Nat) : Nat := top * 2 ^ 20 + r15 * 2 ^ 15 + f3 * 2 ^ 12 + r7 * 2 ^ 7 + op

theorem fields_wordOfFields {top r15 f3 r7 op : Nat} (htop : top < 2 ^ 12) (h15 : r15 < 2 ^ 5) (h3 : f3 < 2 ^ 3)
    (h7 : r7 < 2 ^ 5) (hop : op < 2 ^ 7) :
    wordOfFields top r15 f3 r7 op < 2 ^ 32 ∧ field (wordOfFields top r15 f3 r7 op) 0 7 = op ∧
      field (wordOfFields top r15 f3 r7 op) 12 3 = f3 ∧ field (wordOfFields top r15 f3 r7 op) 25 5 = top / 2 ^ 5 % 2 ^ 5 ∧
      field (wordOfFields top r15 f3 r7 op) 7 5 = r7 ∧ field (wordOfFields top r15 f3 r7 op) 15 5 = r15 ∧
      field (wordOfFields top r15 f3 r7 op) 20 5 = top % 2 ^ 5 := by
  simp only [wordOfFields, field]
  omega

/-- A 32-bit instruction by its fields: those that hold registers hold numbers below 16. -/
theorem rejectsHigh_fields {i : Instr} {bits : List Nat} {top r15 f3 r7 op : Nat}
    (hi : encode i = wordOfFields top r15 f3 r7 op) (hop : WideOpcode op)
    (hfit : top < 2 ^ 12 ∧ r15 < 2 ^ 5 ∧ f3 < 2 ^ 3 ∧ r7 < 2 ^ 5) (hbits : bits.Sublist [11, 19, 24])
    (hlow : (11 ∈ bits → r7 < 16) ∧ (19 ∈ bits → r15 < 16) ∧ (24 ∈ bits → top % 2 ^ 5 < 16))
    (hd : ∀ w, field w 0 7 = op → field w 12 3 = f3 → field w 25 5 = top / 2 ^ 5 % 2 ^ 5 →
      (∃ k ∈ bits, 16 ≤ field w (k - 4) 5) → decode32 w = .error .illegal) : RejectsHigh i bits := by
  obtain ⟨htop, h15, h3, h7⟩ := hfit
  obtain ⟨hlow11, hlow19, hlow24⟩ := hlow
  obtain ⟨hlt, f0, f12, f25, f7, f15, f20⟩ := fields_wordOfFields htop h15 h3 h7 hop.1
  rw [← hi] at hlt f0 f12 f25 f7 f15 f20
  refine rejectsHigh_wide hop hbits ⟨hlt, f0, f12, f25, fun k hk => ?_⟩ hd
  have position : k = 11 ∨ k = 19 ∨ k = 24 := by simpa using hbits.mem hk
  rcases position with rfl | rfl | rfl
  · exact f7.trans_lt (hlow11 hk)
  · exact f15.trans_lt (hlow19 hk)
  · exact f20.trans_lt (hlow24 hk)

theorem rejectsHigh_R {i : Instr} {f7 f3 : Nat} {rd rs1 rs2 : Reg} (h7 : f7 < 2 ^ 7) (h3 : f3 < 2 ^ 3)
    (hi : encode i = encR f7 f3 0x33 rd rs1 rs2) : RejectsHigh i [11, 19, 24] := by
  have fields : encode i = wordOfFields (f7 * 2 ^ 5 + rs2.val) rs1.val f3 rd.val 0x33 := by
    rw [hi, encR, wordOfFields]
    omega
  refine rejectsHigh_fields fields (by decide) (by omega) (.refl _) (by omega) fun w h0 _ _ h => ?_
  simp only [decode32, h0]
  exact decOp_high (by simpa using h)

/-- The formats with rd, rs1 and no rs2: bits [31:20] hold `top`. -/
theorem rejectsHigh_R2 {i : Instr} {top f3 op : Nat} {rd rs1 : Reg} (htop : top < 2 ^ 12) (h3 : f3 < 2 ^ 3)
    (hop : WideOpcode op) (hi : encode i = encR2 top f3 op rd rs1)
    (hd : ∀ w, field w 0 7 = op → field w 12 3 = f3 → 16 ≤ field w 7 5 ∨ 16 ≤ field w 15 5 →
      decode32 w = .error .illegal) : RejectsHigh i [11, 19] :=
  have fields : encode i = wordOfFields top rs1.val f3 rd.val op := hi
  rejectsHigh_fields fields hop (by omega) (by decide) ⟨fun _ => rd.isLt, fun _ => rs1.isLt, by simp⟩
    fun w h0 h3 _ h => hd w h0 h3 (by simpa using h)

theorem rejectsHigh_opImm {i : Instr} {top f3 : Nat} {rd rs1 : Reg} (htop : top < 2 ^ 12) (h3 : f3 < 2 ^ 3)
    (hi : encode i = encR2 top f3 0x13 rd rs1) : RejectsHigh i [11, 19] :=
  rejectsHigh_R2 htop h3 (by decide) hi fun w h0 _ h => by
    simp only [decode32, h0]
    exact decOpImm_high h

theorem rejectsHigh_shift {i : Instr} {f7 f3 : Nat} {rd rs1 : Reg} {shamt : BitVec 5} (h7 : f7 < 2 ^ 7) (h3 : f3 < 2 ^ 3)
    (hi : encode i = encShift f7 f3 rd rs1 shamt) : RejectsHigh i [11, 19] := by
  have fields : encode i = encR2 (f7 * 2 ^ 5 + shamt.toNat) f3 0x13 rd rs1 := by
    rw [hi, encShift, encR2]
    omega
  exact rejectsHigh_opImm (by omega) h3 fields

theorem rejectsHigh_load {i : Instr} {f3 : Nat} {rd rs1 : Reg} {imm : BitVec 12} (h3 : f3 < 2 ^ 3)
    (hi : encode i = encI f3 0x03 rd rs1 imm) : RejectsHigh i [11, 19] :=
  rejectsHigh_R2 imm.isLt h3 (by decide) hi fun w h0 _ h => by
    simp only [decode32, h0]
    exact decLoad_high h

/-- The CSR instructions with a register source (R150). -/
theorem rejectsHigh_csr {i : Instr} {f3 : Nat} {rd rs1 : Reg} {csr : BitVec 12} (h3 : 1 ≤ f3 ∧ f3 ≤ 3)
    (hi : encode i = encI f3 0x73 rd rs1 csr) : RejectsHigh i [11, 19] :=
  rejectsHigh_R2 csr.isLt (by omega) (by decide) hi fun w h0 h3 h => by
    simp only [decode32, h0]
    exact decSystem_high (by omega)

theorem rejectsHigh_csrImm {i : Instr} {f3 : Nat} {rd : Reg} {imm : BitVec 5} {csr : BitVec 12} (h3 : f3 < 2 ^ 3)
    (hi : encode i = encCsrImm f3 rd imm csr) : RejectsHigh i [11] := by
  have fields : encode i = wordOfFields csr.toNat imm.toNat f3 rd.val 0x73 := hi
  refine rejectsHigh_fields fields (by decide) (by omega) (by decide) ⟨fun _ => rd.isLt, by simp, by simp⟩
    fun w h0 _ _ h => ?_
  simp only [decode32, h0]
  exact decSystem_high (.inl (by simpa using h))

theorem rejectsHigh_S {i : Instr} {f3 : Nat} {rs2 rs1 : Reg} {imm : BitVec 12} (h3 : f3 < 2 ^ 3)
    (hi : encode i = encS f3 rs2 rs1 imm) : RejectsHigh i [19, 24] := by
  have himm := field_lt imm.toNat 5 7
  have fields : encode i = wordOfFields (field imm.toNat 5 7 * 2 ^ 5 + rs2.val) rs1.val f3 (field imm.toNat 0 5) 0x23 := by
    rw [hi, encS, wordOfFields]
    omega
  refine rejectsHigh_fields fields (by decide) ⟨by omega, by omega, h3, field_lt ..⟩ (by decide)
    ⟨by simp, fun _ => rs1.isLt, by omega⟩ fun w h0 _ _ h => ?_
  simp only [decode32, h0]
  exact decStore_high (by simpa using h)

theorem rejectsHigh_B {i : Instr} {f3 : Nat} {rs1 rs2 : Reg} {imm : BitVec 12} (h3 : f3 < 2 ^ 3)
    (hi : encode i = encB f3 rs1 rs2 imm) : RejectsHigh i [19, 24] := by
  have h11 := field_lt imm.toNat 11 1
  have h10 := field_lt imm.toNat 10 1
  have h4 := field_lt imm.toNat 4 6
  have h0 := field_lt imm.toNat 0 4
  have fields : encode i = wordOfFields (field imm.toNat 11 1 * 2 ^ 11 + field imm.toNat 4 6 * 2 ^ 5 + rs2.val) rs1.val f3
      (field imm.toNat 0 4 * 2 + field imm.toNat 10 1) 0x63 := by
    rw [hi, encB, wordOfFields]
    omega
  refine rejectsHigh_fields fields (by decide) (by omega) (by decide) ⟨by simp, fun _ => rs1.isLt, by omega⟩
    fun w h0 _ _ h => ?_
  simp only [decode32, h0]
  exact decBranch_high (by simpa using h)

theorem rejectsHigh_U {i : Instr} {op : Nat} {rd : Reg} {imm : BitVec 20} (hop : WideOpcode op)
    (hi : encode i = encU op rd imm)
    (hd : ∀ w, field w 0 7 = op → 16 ≤ field w 7 5 → decode32 w = .error .illegal) : RejectsHigh i [11] := by
  have fields : encode i =
      wordOfFields (imm.toNat / 2 ^ 8) (imm.toNat / 2 ^ 3 % 2 ^ 5) (imm.toNat % 2 ^ 3) rd.val op := by
    rw [hi, encU, wordOfFields]
    omega
  exact rejectsHigh_fields fields hop (by omega) (by decide) ⟨fun _ => rd.isLt, by simp, by simp⟩
    fun w h0 _ _ h => hd w h0 (by simpa using h)

theorem rejectsHigh_jal (rd : Reg) (imm : BitVec 20) : RejectsHigh (.jal rd imm) [11] := by
  have h19 := field_lt imm.toNat 19 1
  have h0 := field_lt imm.toNat 0 10
  have h10 := field_lt imm.toNat 10 1
  have h11 := field_lt imm.toNat 11 8
  have fields : encode (.jal rd imm) =
      wordOfFields (field imm.toNat 19 1 * 2 ^ 11 + field imm.toNat 0 10 * 2 + field imm.toNat 10 1)
        (field imm.toNat 11 8 / 2 ^ 3) (field imm.toNat 11 8 % 2 ^ 3) rd.val 0x6F := by
    rw [encode, encJ, wordOfFields]
    omega
  refine rejectsHigh_fields fields (by decide) (by omega) (by decide) ⟨fun _ => rd.isLt, by simp, by simp⟩
    fun w h0 _ _ h => ?_
  simp only [decode32, h0]
  exact withReg_illegal (by simpa using h) _

/-- A cpx instruction (R153) whose registers are those its funct3 and function have. -/
theorem rejectsHigh_cpx {i : Instr} {bits : List Nat} {func f3 low mid : Nat} {index : BitVec 2} {rs1 : Reg}
    (hi : encode i = encCpx func f3 index low rs1 mid) (hbits : bits.Sublist [11, 19, 24])
    (hfit : func < 2 ^ 5 ∧ f3 < 2 ^ 3 ∧ low < 2 ^ 5 ∧ mid < 2 ^ 5)
    (hrd : 11 ∈ bits → low < 16 ∧ (f3 = 1 ∧ func ≤ 2 ∨ f3 = 7))
    (hrs1 : 19 ∈ bits → f3 = 0 ∧ func ≤ 3 ∨ f3 = 1 ∧ func ≤ 2 ∨ f3 = 7)
    (hrs2 : 24 ∈ bits → mid < 16 ∧ (f3 = 0 ∧ (func = 2 ∨ func = 3) ∨ f3 = 1 ∧ func = 2)) : RejectsHigh i bits := by
  have fields : encode i = wordOfFields (index.toNat * 2 ^ 10 + func * 2 ^ 5 + mid) rs1.val f3 low 0x5B := by
    rw [hi, encCpx, wordOfFields]
    omega
  refine rejectsHigh_fields fields (by decide) (by omega) hbits
    ⟨fun h => (hrd h).1, fun _ => rs1.isLt, fun h => by have := (hrs2 h).1; omega⟩ fun w h0 h3 h25 ⟨k, hk, h⟩ => ?_
  have hfunc : field w 25 5 = func := by omega
  have position : k = 11 ∨ k = 19 ∨ k = 24 := by simpa using hbits.mem hk
  simp only [decode32, h0]
  rcases position with rfl | rfl | rfl
  · exact decCustom2_rd_high (by rw [h3, hfunc]; exact (hrd hk).2) h
  · exact decCustom2_rs1_high (by rw [h3, hfunc]; exact hrs1 hk) h
  · exact decCustom2_rs2_high (by rw [h3, hfunc]; exact (hrs2 hk).2) h

/-! ## The 16-bit formats, field by field -/

/-- The parcel with these bits [15:13], 12, [11:7], [6:2] and [1:0]. -/
def parcelOfFields (f3 b r7 r2 q : Nat) : Nat := f3 * 2 ^ 13 + b * 2 ^ 12 + r7 * 2 ^ 7 + r2 * 2 ^ 2 + q

theorem fields_parcelOfFields {f3 b r7 r2 q : Nat} (h3 : f3 < 2 ^ 3) (hb : b < 2) (h7 : r7 < 2 ^ 5) (h2 : r2 < 2 ^ 5)
    (hq : q < 2 ^ 2) :
    parcelOfFields f3 b r7 r2 q < 2 ^ 16 ∧ field (parcelOfFields f3 b r7 r2 q) 0 2 = q ∧
      field (parcelOfFields f3 b r7 r2 q) 13 3 = f3 ∧ field (parcelOfFields f3 b r7 r2 q) 7 5 = r7 ∧
      field (parcelOfFields f3 b r7 r2 q) 2 5 = r2 := by
  simp only [parcelOfFields, field]
  omega

/-- A 16-bit instruction by its fields: those that hold registers hold numbers below 16. -/
theorem rejectsHigh_parcelFields {i : Instr} {bits : List Nat} {f3 b r7 r2 q : Nat}
    (hi : encode i = parcelOfFields f3 b r7 r2 q) (hq : q < 3)
    (hfit : f3 < 2 ^ 3 ∧ b < 2 ∧ r7 < 2 ^ 5 ∧ r2 < 2 ^ 5) (hbits : bits.Sublist [11, 6])
    (hlow : (11 ∈ bits → r7 < 16) ∧ (6 ∈ bits → r2 < 16))
    (hd : ∀ p, field p 0 2 = q → field p 13 3 = f3 → (∃ k ∈ bits, 16 ≤ field p (k - 4) 5) →
      decode16 p = .error .illegal) : RejectsHigh i bits := by
  obtain ⟨h3, hb, h7, h2⟩ := hfit
  obtain ⟨hlow11, hlow6⟩ := hlow
  obtain ⟨hlt, f0, f13, f7, f2⟩ := fields_parcelOfFields h3 hb h7 h2 (show q < 2 ^ 2 by omega)
  rw [← hi] at hlt f0 f13 f7 f2
  refine rejectsHigh_narrow (by omega) hbits ⟨hlt, f0, f13, fun k hk => ?_⟩ hd
  have position : k = 11 ∨ k = 6 := by simpa using hbits.mem hk
  rcases position with rfl | rfl
  · exact f7.trans_lt (hlow11 hk)
  · exact f2.trans_lt (hlow6 hk)

/-- The parcels of quadrant 01 and 10 with the register field of bits [11:7] alone. -/
theorem rejectsHigh_CI {i : Instr} {f3 b r7 r2 q : Nat} (hi : encode i = parcelOfFields f3 b r7 r2 q) (hb : b < 2)
    (h7 : r7 < 16) (h2 : r2 < 2 ^ 5)
    (hf : q = 1 ∧ (f3 = 0 ∨ f3 = 2 ∨ f3 = 3) ∨ q = 2 ∧ (f3 = 0 ∨ f3 = 2 ∨ f3 = 4)) : RejectsHigh i [11] := by
  refine rejectsHigh_parcelFields hi (by omega) (by omega) (by decide) ⟨fun _ => h7, by simp⟩ fun p h0 h3 h => ?_
  have h : 16 ≤ field p 7 5 := by simpa using h
  rcases hf with ⟨rfl, hf⟩ | ⟨rfl, hf⟩
  · simp only [decode16, h0]
    exact decQ1_high (by rwa [h3]) h
  · rw [decode16_quadrant2 h0]
    exact decQ2_rd_high (by rwa [h3]) h

theorem rejectsHigh_cAddi16sp (imm : BitVec 6) : RejectsHigh (.cAddi16sp imm) [11] := by
  have h0 := field_lt imm.toNat 0 1
  have h2 := field_lt imm.toNat 2 1
  have h3 := field_lt imm.toNat 3 2
  have h1 := field_lt imm.toNat 1 1
  have fields : encode (.cAddi16sp imm) = parcelOfFields 3 (field imm.toNat 5 1) 2
      (field imm.toNat 0 1 * 2 ^ 4 + field imm.toNat 2 1 * 2 ^ 3 + field imm.toNat 3 2 * 2 + field imm.toNat 1 1) 1 := by
    rw [encode, parcelOfFields]
    omega
  exact rejectsHigh_CI fields (field_lt ..) (by decide) (by omega) (by decide)

theorem rejectsHigh_cLwsp (rd : Reg) (imm : BitVec 6) : RejectsHigh (.cLwsp rd imm) [11] := by
  have h0 := field_lt imm.toNat 0 3
  have h4 := field_lt imm.toNat 4 2
  have fields : encode (.cLwsp rd imm) = parcelOfFields 2 (field imm.toNat 3 1) rd.val
      (field imm.toNat 0 3 * 2 ^ 2 + field imm.toNat 4 2) 2 := by
    rw [encode, parcelOfFields]
    omega
  exact rejectsHigh_CI fields (field_lt ..) rd.isLt (by omega) (by decide)

theorem rejectsHigh_cSwsp (rs2 : Reg) (imm : BitVec 6) : RejectsHigh (.cSwsp rs2 imm) [6] := by
  have h0 := field_lt imm.toNat 0 4
  have h4 := field_lt imm.toNat 4 2
  have fields : encode (.cSwsp rs2 imm) = parcelOfFields 6 (field imm.toNat 0 4 / 2 ^ 3)
      (field imm.toNat 0 4 % 2 ^ 3 * 2 ^ 2 + field imm.toNat 4 2) rs2.val 2 := by
    rw [encode, parcelOfFields]
    omega
  refine rejectsHigh_parcelFields fields (by decide) (by omega) (by decide) ⟨by simp, fun _ => rs2.isLt⟩ fun p h0 h3 h => ?_
  rw [decode16_quadrant2 h0]
  exact decQ2_rs2_high (.inr h3) (by simpa using h)

/-- The CR format is funct3 100 in quadrant 10; bit 12 is the lowest of funct4. -/
theorem encCr_eq_parcelOfFields {f4 : Nat} (hf : f4 = 8 ∨ f4 = 9) (rd rs2 : Nat) :
    encCr f4 rd rs2 = parcelOfFields 4 (f4 - 8) rd rs2 2 := by
  rw [encCr, parcelOfFields]
  omega

/-- C.JR and C.JALR have the first register field of the CR format. -/
theorem rejectsHigh_CR1 {i : Instr} {f4 : Nat} {rs1 : Reg} (hf : f4 = 8 ∨ f4 = 9) (hi : encode i = encCr f4 rs1.val 0) :
    RejectsHigh i [11] :=
  rejectsHigh_CI (hi.trans (encCr_eq_parcelOfFields hf ..)) (by omega) rs1.isLt (by decide) (by decide)

/-- C.ADD and C.MV have both. -/
theorem rejectsHigh_CR2 {i : Instr} {f4 : Nat} {rd rs2 : Reg} (hf : f4 = 8 ∨ f4 = 9) (hi : encode i = encCr f4 rd.val rs2.val) :
    RejectsHigh i [11, 6] := by
  refine rejectsHigh_parcelFields (hi.trans (encCr_eq_parcelOfFields hf ..)) (by decide) (by omega) (.refl _)
    ⟨fun _ => rd.isLt, fun _ => rs2.isLt⟩ fun p h0 h3 h => ?_
  rw [decode16_quadrant2 h0]
  have h : 16 ≤ field p 7 5 ∨ 16 ≤ field p 2 5 := by simpa using h
  rcases h with h | h
  · exact decQ2_rd_high (by omega) h
  · exact decQ2_rs2_high (by omega) h

/-! ## Every instruction -/

theorem rejectsHigh_highRegBits (i : Instr) : RejectsHigh i (highRegBits i) := by
  cases i
  case add | and | or | sll | slt | sltu | sra | srl | sub | xor | mul | mulh | mulhsu | mulhu | sh1add | sh2add | sh3add |
      andn | orn | xnor | max | maxu | min | minu | rol | ror | bclr | bext | binv | bset =>
    exact rejectsHigh_R (by decide) (by decide) rfl
  case zextH =>
    refine rejectsHigh_R2 (by decide) (by decide) (by decide) rfl fun w h0 _ h => ?_
    simp only [decode32, h0]
    exact decOp_high (by omega)
  case addi | andi | ori | slti | sltiu | xori => exact rejectsHigh_opImm (BitVec.isLt _) (by decide) rfl
  case clz | ctz | cpop | sextB | sextH | orcB | rev8 => exact rejectsHigh_opImm (by decide) (by decide) rfl
  case slli | srai | srli | rori | bclri | bexti | binvi | bseti => exact rejectsHigh_shift (by decide) (by decide) rfl
  case lb | lbu | lh | lhu | lw => exact rejectsHigh_load (by decide) rfl
  case jalr rd rs1 imm =>
    refine rejectsHigh_R2 imm.isLt (by decide) (by decide) rfl fun w h0 h3 h => ?_
    simp only [decode32, h0, h3, if_true]
    exact decI_high h _
  case csrrw | csrrs | csrrc => exact rejectsHigh_csr (by decide) rfl
  case csrrwi | csrrsi | csrrci => exact rejectsHigh_csrImm (by decide) rfl
  case sb | sh | sw => exact rejectsHigh_S (by decide) rfl
  case beq | bge | bgeu | blt | bltu | bne => exact rejectsHigh_B (by decide) rfl
  case lui | auipc =>
    refine rejectsHigh_U (by decide) rfl fun w h0 h => ?_
    simp only [decode32, h0]
    exact withReg_illegal h _
  case jal rd imm => exact rejectsHigh_jal rd imm
  case cpx0 index rs1 uimm =>
    exact rejectsHigh_cpx (bits := [19]) rfl (by decide) ⟨by decide, by decide, field_lt .., field_lt ..⟩ (by simp) (by simp)
      (by simp)
  case cpx1 => exact rejectsHigh_cpx (bits := [19]) rfl (by decide) (by decide) (by simp) (by simp) (by simp)
  case cpx2 | cpx3 => exact rejectsHigh_cpx (bits := [11, 19]) rfl (by decide) (by omega) (by simp) (by simp) (by simp)
  case cpx4 | cpx5 => exact rejectsHigh_cpx (bits := [19, 24]) rfl (by decide) (by omega) (by simp) (by simp) (by simp)
  case cpx6 => exact rejectsHigh_cpx (bits := [11, 19, 24]) rfl (by decide) (by omega) (by simp) (by simp) (by simp)
  case cpx9 index rd rs1 uimm =>
    exact rejectsHigh_cpx (bits := [11, 19]) rfl (by decide) ⟨field_lt .., by decide, by omega, field_lt ..⟩ (by simp)
      (by simp) (by simp)
  case cAdd | cMv => exact rejectsHigh_CR2 (by decide) rfl
  case cAddi rd imm | cLi rd imm | cLui rd imm | cSlli rd imm =>
    exact rejectsHigh_CI rfl (field_lt ..) rd.isLt (field_lt ..) (by decide)
  case cJr | cJalr => exact rejectsHigh_CR1 (by decide) rfl
  case cAddi16sp imm => exact rejectsHigh_cAddi16sp imm
  case cLwsp rd imm => exact rejectsHigh_cLwsp rd imm
  case cSwsp rs2 imm => exact rejectsHigh_cSwsp rs2 imm
  all_goals exact rejectsHigh_nil _

/-- Settles O3: each instruction by its format, and the rejection by what executing it is. -/
theorem highRegisterFieldsAreIllegal : Obligations.HighRegisterFieldsAreIllegal :=
  ⟨fun i l hne hl => rejectsHigh_highRegBits i l hne hl, fun _ => rfl⟩

end Sys2Proof
end

section
/-!
Upper immediates, branches and jumps: their immediates as numbers, and what each instruction does (40_rv32e_base.md R205 to
R214).
-/

namespace Sys2Proof.Machine

/-! ## The immediates as numbers (30_encoding.md R147 to R149) -/

theorem upperImm_eq_ofNat (imm : BitVec 20) : upperImm imm = BitVec.ofNat 32 (imm.toNat * 2 ^ 12) := by
  refine BitVec.eq_of_toNat_eq ?_
  have hzero : (0 : BitVec 12).toNat = 0 := rfl
  rw [upperImm, toNat_append_eq_add, hzero, BitVec.toNat_ofNat]
  omega

/-- A 0 bit below an immediate doubles its signed value. -/
theorem toInt_append_zero {n : Nat} (imm : BitVec n) : (imm ++ (0 : BitVec 1)).toInt = 2 * imm.toInt := by
  have hnat : (imm ++ (0 : BitVec 1)).toNat = 2 * imm.toNat := by
    rw [toNat_append_eq_add]
    simp [Nat.mul_comm]
  rw [BitVec.toInt_eq_toNat_cond, BitVec.toInt_eq_toNat_cond, hnat, Nat.pow_succ]
  split <;> split <;> omega

theorem signExtend_append_zero {n : Nat} (imm : BitVec n) :
    (imm ++ (0 : BitVec 1)).signExtend 32 = wordOf (2 * imm.toInt) := by
  rw [BitVec.signExtend, toInt_append_zero, wordOf]

/-- Clearing bit 0 rounds down to an even number. -/
theorem clearBit0_eq_ofNat (v : Word) : clearBit0 v = BitVec.ofNat 32 (v.toNat / 2 * 2) := by
  have mask : ∀ j : Fin 32, (0xFFFFFFFE#32).getLsbD j.val = decide (1 ≤ j.val) := by decide
  refine BitVec.eq_of_getLsbD_eq fun i hi => ?_
  have hmask : (0xFFFFFFFE : Word).getLsbD i = decide (1 ≤ i) := mask ⟨i, hi⟩
  rw [clearBit0, BitVec.getLsbD_and, hmask, BitVec.getLsbD_ofNat, ← Nat.pow_one 2, Nat.testBit_mul_two_pow,
    Nat.testBit_div_two_pow]
  by_cases h : 1 ≤ i
  · simp [h, hi, BitVec.getLsbD]
  · simp [h]

/-! ## Upper immediates -/

/-- Settles O8: the encodings by the U format, the results by the immediate as a number. -/
theorem upperImmediateResults : Obligations.UpperImmediateResults := by
  refine ⟨encodedU_of_reads (by decide) fun w h0 => by simp only [decode32, h0],
    encodedU_of_reads (by decide) fun w h0 => by simp only [decode32, h0], fun s rd imm => ⟨?_, ?_⟩⟩
  · rw [← upperImm_eq_ofNat]
    exact writes_of_writeTo rfl
  · rw [BitVec.ofNat_add, BitVec.ofNat_toNat, BitVec.setWidth_eq, ← upperImm_eq_ofNat]
    exact writes_of_writeTo rfl

/-! ## Branches -/

/-- A branch on `b`, which says what the proposition `p` says, taken where `p` holds. -/
theorem goesTo_branch {i : Instr} {s : State} {b : Bool} {p : Prop} [Decidable p] {imm : BitVec 12}
    (hi : exec i s = branchTo s 4 b (branchOffset imm)) (hb : b = true ↔ p) :
    GoesTo i s (if p then s.pc + wordOf (2 * imm.toInt) else s.pc + 4) := by
  have h := goesTo_of_branchTo hi
  rwa [branchOffset, signExtend_append_zero, if_congr hb rfl rfl] at h

theorem goesTo_branch_not {i : Instr} {s : State} {b : Bool} {p : Prop} [Decidable p] {imm : BitVec 12}
    (hi : exec i s = branchTo s 4 (!b) (branchOffset imm)) (hb : b = true ↔ p) :
    GoesTo i s (if p then s.pc + 4 else s.pc + wordOf (2 * imm.toInt)) := by
  have h := goesTo_branch (p := ¬ p) hi (by rw [Bool.not_eq_true', ← Bool.not_eq_true, hb])
  rwa [ite_not] at h

theorem ltS_iff (a b : Word) : ltS a b = true ↔ a.toInt < b.toInt := BitVec.slt_iff_toInt_lt
theorem ltU_iff (a b : Word) : ltU a b = true ↔ a.toNat < b.toNat := BitVec.ult_iff_toNat_lt

/-- Settles O18: the encodings by the B format, each target by what the branch's comparison says. -/
theorem branchResults : Obligations.BranchResults := by
  refine ⟨?_, ?_, ?_, ?_, ?_, ?_, fun s rs1 rs2 imm => ⟨?_, ?_, ?_, ?_, ?_, ?_⟩⟩
  case refine_1 | refine_2 | refine_3 | refine_4 | refine_5 | refine_6 =>
    exact encodedB_of_reads fun w h0 h3 => by simp only [decode32, h0, decBranch, h3]
  · exact goesTo_branch rfl beq_iff_eq
  · exact goesTo_branch_not rfl beq_iff_eq
  · exact goesTo_branch rfl (ltS_iff ..)
  · exact goesTo_branch_not rfl (ltS_iff ..)
  · exact goesTo_branch rfl (ltU_iff ..)
  · exact goesTo_branch_not rfl (ltU_iff ..)

/-! ## Jumps -/

/-- Settles O19: both jumps link and go to their target; only the spelling of the target differs from the model's. -/
theorem jumpResults : Obligations.JumpResults := by
  refine ⟨encodedJ_jal, encodedI_of_reads (by decide) fun w h0 h3 => by simp only [decode32, h0, h3, if_true],
    fun s rd imm => ?_, fun s rd rs1 imm => ?_⟩
  · rw [← signExtend_append_zero]
    exact links_of_jumpLink rfl
  · have himm : wordOf imm.toInt = sext12 imm := rfl
    rw [← clearBit0_eq_ofNat, himm]
    exact links_of_jumpLink rfl

end Sys2Proof.Machine
end

section
/-!
The CSR instructions that write: where the write is carried out, they complete (10_state.md R35, 40_rv32e_base.md R240 to
R246).
-/

namespace Sys2Proof.Machine

/-- A write that is carried out is one the access allows. -/
theorem csrAccess_of_writable {s : State} {n : BitVec 12} {c : CsrName} (hn : csrOf n = some c) (hw : Writable s c) :
    csrAccess s n true = .ok c := by
  cases c
  case mtvec | mtvt | jvt =>
    have hw : s.cfg.vecFixed = false := hw
    simp [csrAccess, hn, hw]
  case mcountinhibit | mcycle | minstret =>
    have hw : s.cfg.hasCounters = true := hw
    simp [csrAccess, hn, counterCsr, hw]
  case tselect | tcontrol | mcontext | mhaltcause =>
    have hw : s.hasDebug = true := hw
    simp [csrAccess, hn, debugCsr, hw]
  case tdata1 | tdata2 | tdata3 =>
    obtain ⟨hdebug, h | h⟩ : s.hasDebug = true ∧ ((selected s).dmode = false ∨ s.dbg.debugMode = true) := hw <;>
      simp [csrAccess, hn, triggerCsr, hdebug, h]
  case dcsr | dpc | dscratch0 | dscratch1 =>
    have hw : s.dbg.debugMode = true := hw
    simp [csrAccess, hn, hw]
  case mstatus | mscratch | mscratchcswl | mepc | mcause | mxstatus | mexstatus => simp [csrAccess, hn]
  all_goals exact hw.elim

/-! ## The counters (10_state.md R47 to R49) -/

theorem csrWrite_minstret {s : State} {c : CsrName} (hc : c ≠ .minstret) (v : Word) :
    (csrWrite s c v).ctr.minstret = s.ctr.minstret := by
  cases c
  case minstret => contradiction
  all_goals rfl

/-- The retirement of a CSR instruction changes no counter but minstret. -/
theorem retireCsr_ctr (s t : State) (c : CsrName) :
    (retireCsr s t c).ctr.mcy = t.ctr.mcy ∧ (retireCsr s t c).ctr.mir = t.ctr.mir ∧
      (retireCsr s t c).ctr.mcycle = t.ctr.mcycle := by
  unfold retireCsr
  split
  · simp
  · split
    · simp [State.retire]
    · split <;> simp

theorem retireCsr_pc {s t : State} (ht : t.pc = s.pc) (c : CsrName) : (retireCsr s t c).pc = normPc (s.pc + 4) := by
  unfold retireCsr
  split
  · rfl
  · split
    · rw [retire_pc, ht]
    · rfl

theorem retireCsr_minstret_written (s t : State) : (retireCsr s t .minstret).ctr = t.ctr := by
  simp [retireCsr]

/-- An instruction that leaves whether minstret counts as it was is counted once. -/
theorem countedOne_retireCsr {s t : State} {c : CsrName} (hc : c ≠ .minstret) (ht : t.ctr.minstret = s.ctr.minstret)
    (hcounting : Counting (retireCsr s t c) ↔ Counting s) : CountedOne s (retireCsr s t c) := by
  obtain ⟨hcfg, _, _, hdbg, _⟩ := retireCsr_frame s t c
  obtain ⟨_, hmir, _⟩ := retireCsr_ctr s t c
  have hsame : countsRetired t = countsRetired s := by
    rw [← countsRetired_congr hcfg hmir hdbg, Bool.eq_iff_iff, countsRetired_iff, countsRetired_iff, hcounting]
  have hretire : retireCsr s t c = t.retire 4 := by simp [retireCsr, hc, hsame]
  rw [hretire, CountedOne, ← countsRetired_iff, State.retire, retireTo_minstret, hsame, ht]
  constructor <;> intro h <;> simp [h]

/-! ## The instructions -/

/-- A modification that is carried out and writes `v`. -/
theorem csrStep_of_csrModify {i : Instr} {s : State} {rd : Reg} {n : BitVec 12} {c : CsrName}
    {f : CsrName → Word → State} {v : Word} (hi : exec i s = csrModify s rd n f) (hn : csrOf n = some c)
    (hw : Writable s c) (hf : f c (csrRead s c) = csrWrite s c v) : CsrStep i s rd c v := by
  have hexec : exec i s = .next (retireCsr s ((csrWrite s c v).setX rd (csrRead s c)) c) := by
    simp only [hi, csrModify, csrAccess_of_writable hn hw, hf]
  obtain ⟨hcfg, hregs, hpc, hclic, hpins, hmem, hstale, hsleeping, hstack, hcop, hdevices, hinputs, htick⟩ :=
    csrWrite_frame s c v
  obtain ⟨rcfg, rregs, rcsr, rdbg, rclic, rpins, rmem, rstale, rsleeping, rstack, rcop, rdevices, rinputs, rtick⟩ :=
    retireCsr_frame s ((csrWrite s c v).setX rd (csrRead s c)) c
  obtain ⟨rmcy, rmir, rmcycle⟩ := retireCsr_ctr s ((csrWrite s c v).setX rd (csrRead s c)) c
  refine ⟨_, hexec, ?_, retireCsr_pc (by simpa using hpc) c, by simpa using rcsr, by simpa using rdbg, by simpa using rmcy,
    by simpa using rmir, by simpa using rmcycle, ?_, ?_, ?_, ?_, by simpa [hstale] using rstale,
    by simpa [hcfg] using rcfg, by simpa [hclic] using rclic, by simpa [hpins] using rpins,
    by simpa [hsleeping] using rsleeping, by simpa [hstack] using rstack, by simpa [hcop] using rcop,
    by simpa [hdevices] using rdevices, by simpa [hinputs] using rinputs, by simpa [htick] using rtick⟩
  · rw [x_of_regs rregs, x_setX_written]
  · rintro rfl
    rw [retireCsr_minstret_written, setX_ctr]
    rfl
  · exact fun hc => countedOne_retireCsr hc (by rw [setX_ctr, csrWrite_minstret hc])
  · intro r hr
    rw [x_of_regs rregs, x_setX_other _ _ (by simpa using hr), x_of_regs hregs]
  · intro a _
    rw [rmem, setX_mem, hmem]

/-! ## The values they write -/

theorem zext5_eq_ofNat (imm : BitVec 5) : zext5 imm = BitVec.ofNat 32 imm.toNat := (BitVec.ofNat_toNat 32 imm).symm

/-- The upper 27 bits of a word above a five-bit immediate. -/
theorem append_imm_eq_ofNat (t : Word) (imm : BitVec 5) :
    t.extractLsb' 5 27 ++ imm = BitVec.ofNat 32 (t.toNat / 2 ^ 5 * 2 ^ 5 + imm.toNat) := by
  refine BitVec.eq_of_toNat_eq ?_
  have := t.isLt
  rw [toNat_append_eq_add, BitVec.extractLsb'_toNat, Nat.shiftRight_eq_div_pow, BitVec.toNat_ofNat]
  omega

/-- What CSRRWI writes, as the free value CSRRWI_UPPER says (R244). -/
theorem csrWriteImm_eq_ofNat (s : State) (imm : BitVec 5) (c : CsrName) (t : Word) :
    csrWriteImm s imm c t = csrWrite s c
      (match Config.csrrwiUpper with
        | .preserve => BitVec.ofNat 32 (t.toNat / 2 ^ 5 * 2 ^ 5 + imm.toNat)
        | .zero => BitVec.ofNat 32 imm.toNat) := by
  rw [csrWriteImm_eq]
  cases Config.csrrwiUpper
  · simp only [append_imm_eq_ofNat]
  · simp only [zext5_eq_ofNat]

/-- Settles O26: past the swap form each instruction is a modification whose write is carried out. -/
theorem csrWritesComplete : Obligations.CsrWritesComplete := by
  refine ⟨?_, ?_, ?_, ?_, ?_, ?_, fun s rd rs1 imm n c hn hw => ⟨csrStep_of_csrModify (exec_csrrw ..) hn hw rfl, fun hc =>
    ⟨fun h => ?_, fun h => ?_, fun h => ?_, fun h => ?_, ?_⟩⟩⟩
  case refine_1 | refine_2 | refine_3 =>
    exact encodedI_of_reads (by decide) fun w h0 h3 => by simp only [decode32, h0, decSystem, h3, decCsr]
  case refine_4 | refine_5 | refine_6 =>
    exact encodedCsrImm_of_reads fun w h0 h3 => by simp only [decode32, h0, decSystem, h3]
  all_goals have hswap : csrOf n ≠ some .mscratchcswl := by rw [hn]; simpa using hc
  case refine_7 => exact csrStep_of_csrModify (by rw [exec_csrrs, notSwap_of_ne hswap, if_neg h]) hn hw rfl
  case refine_8 => exact csrStep_of_csrModify (by rw [exec_csrrc, notSwap_of_ne hswap, if_neg h]) hn hw rfl
  case refine_9 =>
    rw [← zext5_eq_ofNat]
    exact csrStep_of_csrModify (by rw [exec_csrrsi, notSwap_of_ne hswap, if_neg h]) hn hw rfl
  case refine_10 =>
    rw [← zext5_eq_ofNat]
    exact csrStep_of_csrModify (by rw [exec_csrrci, notSwap_of_ne hswap, if_neg h]) hn hw rfl
  case refine_11 =>
    exact csrStep_of_csrModify (by rw [exec_csrrwi, notSwap_of_ne hswap]) hn hw (csrWriteImm_eq_ofNat ..)

end Sys2Proof.Machine
end

section
/-!
Instructions of an option the build lacks, and the words of the custom opcodes (30_encoding.md R165, R166, 45_coprocessor.md
R382, 44_zcb_zcmp_zcmt.md R350).
-/

namespace Sys2Proof.Machine

/-! ## The sign and zero extensions of Zcb as numbers -/

/-- A sign extension adds the upper bits where the sign is set. -/
theorem signExtend_eq_ofNat {n : Nat} (hn : n ≤ 32) (x : BitVec n) :
    x.signExtend 32 =
      if x.toNat < 2 ^ (n - 1) then BitVec.ofNat 32 x.toNat else BitVec.ofNat 32 (x.toNat + (2 ^ 32 - 2 ^ n)) := by
  refine BitVec.eq_of_toNat_eq ?_
  rw [BitVec.toNat_signExtend, BitVec.msb_eq_decide, BitVec.toNat_setWidth]
  have hx := x.isLt
  have hpow : 2 ^ n ≤ 2 ^ 32 := Nat.pow_le_pow_right (by decide) hn
  by_cases h : x.toNat < 2 ^ (n - 1)
  · simp [h]
  · rw [if_neg h, if_pos (by simpa using h), BitVec.toNat_ofNat, Nat.mod_eq_of_lt (by omega), Nat.mod_eq_of_lt (by omega)]

theorem sextByte_eq_signed8 (v : Word) : sextByte v = signed8 v.toNat := by
  rw [sextByte, signExtend_eq_ofNat (by decide), BitVec.extractLsb'_toNat, Nat.shiftRight_zero, signed8]

theorem sextHalf_eq_signed16 (v : Word) : sextHalf v = signed16 v.toNat := by
  rw [sextHalf, signExtend_eq_ofNat (by decide), BitVec.extractLsb'_toNat, Nat.shiftRight_zero, signed16]

theorem zextHalf_eq_unsigned16 (v : Word) : zextHalf v = unsigned16 v.toNat := by
  rw [zextHalf, ← BitVec.ofNat_toNat, BitVec.extractLsb'_toNat, Nat.shiftRight_zero, unsigned16]

/-! ## Absent instructions -/

theorem traps_of_gated {i : Instr} {s : State} {b : Bool} {k : Out} (hi : exec i s = gated b s k) (hb : b = false) :
    Traps i s 2 := hi.trans (gated_absent hb s k)

theorem writes_of_gated {i : Instr} {s : State} {b : Bool} {rd : Reg} {v len : Word}
    (hi : exec i s = gated b s (writeTo s len rd v)) (hb : b = true) : Writes i s rd v len :=
  writes_of_writeTo (hi.trans (gated_present hb s _))

/-! ## Custom words -/

theorem decCustom2_other {w : Nat}
    (h : field w 12 3 = 0 ∧ field w 25 5 ∉ [0, 1, 2, 3] ∨ field w 12 3 = 1 ∧ field w 25 5 ∉ [0, 1, 2] ∨
      2 ≤ field w 12 3 ∧ field w 12 3 ≤ 6) : decCustom2 w = .error (.custom (BitVec.ofNat 32 w)) := by
  simp only [List.mem_cons, List.not_mem_nil, or_false, not_or] at h
  unfold decCustom2
  split
  case h_9 => rfl
  all_goals omega

theorem decode32_custom {w : Nat} (h : CustomWord w) : decode32 w = .error (.custom (BitVec.ofNat 32 w)) := by
  rcases h with h | h | ⟨h, hother⟩
  · simp only [decode32, h]
  · simp only [decode32, h]
  · simp only [decode32, h, decCustom2_other hother]

theorem decode_custom {w : Nat} (hw : w < 2 ^ 32) (h : CustomWord w) :
    decode (leBytes 4 w) = .error (.custom (BitVec.ofNat 32 w)) := by
  have hop : field w 0 7 = 0b0101011 ∨ field w 0 7 = 0b1111011 ∨ field w 0 7 = 0b1011011 := by
    rcases h with h | h | ⟨h, _⟩
    · exact .inl h
    · exact .inr (.inl h)
    · exact .inr (.inr h)
  have hlow : w % 4 = 3 ∧ w % 32 ≠ 31 := by
    simp only [field] at hop
    omega
  rw [decode_leBytes_wide hw hlow.1 hlow.2, decode32_custom h]

theorem isUserDefined_eq_true {s : State} {w : Word} (h : ∃ p ∈ s.cfg.userCop, w &&& p.mask = p.value) :
    isUserDefined s w = true := by
  simpa [isUserDefined] using h

theorem isUserDefined_eq_false {s : State} {w : Word} (h : ∀ p ∈ s.cfg.userCop, w &&& p.mask ≠ p.value) :
    isUserDefined s w = false := by
  simpa [isUserDefined] using h

/-- What a custom word does (R165, R382). -/
theorem execReject_custom (s : State) (w : Word) :
    execReject s (.custom w) =
      if s.cfg.hasCop && (s.csr.copEn || !isUserDefined s w) then .refused .customInstruction
      else .next (raise s 2) := rfl

theorem copEnabled_eq_false {s : State} (h : s.cfg.hasCop = false ∨ s.csr.copEn = false) : copEnabled s = false :=
  (Bool.and_eq_false_iff ..).mpr h

/-- The free value about Zcb without B is one for the machine, so the three instructions all exist or are all absent. -/
theorem zcbExtensions_without_B :
    (∀ (s : State) (rd : CReg), s.cfg.hasB = false →
      Writes (.cSextB rd) s (creg rd) (signed8 (s.x (creg rd)).toNat) 2 ∧
      Writes (.cZextH rd) s (creg rd) (unsigned16 (s.x (creg rd)).toNat) 2 ∧
      Writes (.cSextH rd) s (creg rd) (signed16 (s.x (creg rd)).toNat) 2) ∨
    ∀ (s : State) (rd : CReg), s.cfg.hasB = false →
      Traps (.cSextB rd) s 2 ∧ Traps (.cZextH rd) s 2 ∧ Traps (.cSextH rd) s 2 := by
  have exist : ∀ s : State, s.cfg.hasB = false → hasZcbExt s = Config.zcbWithoutB := fun s hs => by
    rw [hasZcbExt, hs, Bool.false_or]
  cases hfree : Config.zcbWithoutB with
  | true =>
    refine .inl fun s rd hs => ?_
    have present := (exist s hs).trans hfree
    rw [← sextByte_eq_signed8, ← zextHalf_eq_unsigned16, ← sextHalf_eq_signed16]
    exact ⟨writes_of_gated rfl present, writes_of_gated rfl present, writes_of_gated rfl present⟩
  | false =>
    refine .inr fun s rd hs => ?_
    have absent := (exist s hs).trans hfree
    exact ⟨traps_of_gated rfl absent, traps_of_gated rfl absent, traps_of_gated rfl absent⟩

/-- Settles O13: an instruction of an absent option is gated, and a custom word has its own rejection. -/
theorem absentOptionsTrap : Obligations.AbsentOptionsTrap := by
  refine ⟨zcbExtensions_without_B, fun s rd rs1 rs2 c1 c2 shamt uimm index =>
    ⟨fun hmul i hi => ?_, fun hB i hi => ?_, fun hcop i hi => ?_, fun w hw h => decode_custom hw h, fun w =>
      ⟨fun hcop => ?_, fun hcop h => ?_, fun hcop h => ?_⟩⟩⟩
  case refine_1 =>
    have absent : hasMul s = false := by simp [hasMul, hmul]
    fin_cases hi <;> exact traps_of_gated rfl absent
  case refine_2 => fin_cases hi <;> exact traps_of_gated rfl hB
  case refine_3 =>
    have absent := copEnabled_eq_false hcop
    fin_cases hi <;> exact traps_of_gated rfl absent
  case refine_4 => simp [execReject_custom, hcop]
  case refine_5 => simp [execReject_custom, hcop, isUserDefined_eq_false h]
  case refine_6 => simp [execReject_custom, hcop, isUserDefined_eq_true h]

end Sys2Proof.Machine
end

section
/-!
Register and immediate arithmetic: the R format and the shift-immediate form, each result as a number, and what each
instruction does (30_encoding.md R143 to R145, 40_rv32e_base.md R201 to R204, R223 to R237).
-/

namespace Sys2Proof.Machine

/-! ## Which words the two forms read -/

/-- Words of this opcode, funct3 and funct7 are read as R format (R143). -/
def ReadsR (f7 f3 op : Nat) (k : Reg → Reg → Reg → Instr) : Prop :=
  ∀ w, field w 0 7 = op → field w 12 3 = f3 → field w 25 7 = f7 → decode32 w = decR w k

/-- Words of this funct3 and funct7 on opcode 0010011 are read as shift-immediate form (R145). -/
def ReadsShift (f7 f3 : Nat) (k : Reg → Reg → BitVec 5 → Instr) : Prop :=
  ∀ w, field w 0 7 = 0b0010011 → field w 12 3 = f3 → field w 25 7 = f7 → decode32 w = decShift w k

theorem encodedR_of_reads {f7 f3 op : Nat} {k : Reg → Reg → Reg → Instr} (hop : WideOpcode op) (hk : ReadsR f7 f3 op k) :
    EncodedR f7 f3 op k := fun w hw rd rs1 rs2 h0 h3 h7 hrd hrs1 hrs2 => by
  refine decodeTableWord_of_opcode hw hop h0 ?_
  rw [hk w h0 h3 h7, decR, hrd, hrs1, hrs2, withReg_val, withReg_val, withReg_val]

theorem encodedShift_of_reads {f7 f3 : Nat} {k : Reg → Reg → BitVec 5 → Instr} (hk : ReadsShift f7 f3 k) :
    EncodedShift f7 f3 k := fun w hw rd rs1 shamt h0 h3 h7 hrd hrs1 hshamt => by
  refine decodeTableWord_of_opcode hw (by decide) h0 ?_
  rw [hk w h0 h3 h7, decShift, hrd, hrs1, hshamt, withReg_val, withReg_val, BitVec.ofNat_toNat, BitVec.setWidth_eq]

/-! ## The results as numbers (00_scope.md R13) -/

theorem wordOf_add (m n : Int) : wordOf (m + n) = wordOf m + wordOf n := BitVec.ofInt_add m n

theorem wordOf_toNat (v : Word) : wordOf v.toNat = v := by
  rw [wordOf, BitVec.ofInt_natCast, BitVec.ofNat_toNat, BitVec.setWidth_eq]

theorem wordOf_neg_toNat (v : Word) : wordOf (-(v.toNat : Int)) = -v := by
  rw [wordOf, BitVec.ofInt_neg, ← wordOf, wordOf_toNat]

theorem sext12_eq_wordOf (imm : BitVec 12) : sext12 imm = wordOf imm.toInt := rfl

theorem toInt_sext12 (imm : BitVec 12) : (sext12 imm).toInt = imm.toInt := BitVec.toInt_signExtend_of_le (by decide)

theorem add_eq_wordOf (a b : Word) : a + b = wordOf (a.toNat + b.toNat) := by
  rw [wordOf_add, wordOf_toNat, wordOf_toNat]

theorem sub_eq_wordOf (a b : Word) : a - b = wordOf (a.toNat - b.toNat) := by
  rw [Int.sub_eq_add_neg, wordOf_add, wordOf_neg_toNat, wordOf_toNat, BitVec.sub_eq_add_neg]

theorem add_sext12_eq_wordOf (a : Word) (imm : BitVec 12) : a + sext12 imm = wordOf (a.toNat + imm.toInt) := by
  rw [wordOf_add, wordOf_toNat, sext12_eq_wordOf]

theorem and_eq_ofNat (a b : Word) : a &&& b = BitVec.ofNat 32 (a.toNat &&& b.toNat) := by
  rw [← BitVec.toNat_and, BitVec.ofNat_toNat, BitVec.setWidth_eq]

theorem or_eq_ofNat (a b : Word) : a ||| b = BitVec.ofNat 32 (a.toNat ||| b.toNat) := by
  rw [← BitVec.toNat_or, BitVec.ofNat_toNat, BitVec.setWidth_eq]

theorem xor_eq_ofNat (a b : Word) : a ^^^ b = BitVec.ofNat 32 (a.toNat ^^^ b.toNat) := by
  rw [← BitVec.toNat_xor, BitVec.ofNat_toNat, BitVec.setWidth_eq]

/-- A shift to the left multiplies (R227). -/
theorem shiftLeft_eq_ofNat (a : Word) (n : Nat) : a <<< n = BitVec.ofNat 32 (a.toNat * 2 ^ n) := by
  refine BitVec.eq_of_toNat_eq ?_
  rw [BitVec.toNat_shiftLeft, Nat.shiftLeft_eq, BitVec.toNat_ofNat]

/-- A logical shift to the right divides the unsigned value (R235). -/
theorem ushiftRight_eq_ofNat (a : Word) (n : Nat) : a >>> n = BitVec.ofNat 32 (a.toNat / 2 ^ n) := by
  rw [← Nat.shiftRight_eq_div_pow, ← BitVec.toNat_ushiftRight, BitVec.ofNat_toNat, BitVec.setWidth_eq]

/-- An arithmetic shift to the right divides the signed value, rounding down (R233). -/
theorem sshiftRight_eq_wordOf (a : Word) (n : Nat) : a.sshiftRight n = wordOf (a.toInt / 2 ^ n) := by
  rw [BitVec.sshiftRight_eq, Int.shiftRight_eq_div_pow, wordOf, Nat.cast_pow, Nat.cast_ofNat]

/-- A comparison as a register value, by what it says (R229). -/
theorem boolWord_eq_bitOf {b : Bool} {p : Prop} [Decidable p] (h : b = true ↔ p) : boolWord b = bitOf p :=
  if_congr h rfl rfl

theorem ltS_sext12_iff (a : Word) (imm : BitVec 12) : ltS a (sext12 imm) = true ↔ a.toInt < imm.toInt := by
  rw [ltS_iff, toInt_sext12]

/-! ## The instructions -/

/-- An instruction that writes the word `v`, whose value as a number is `w`. -/
theorem writes_of_writeTo_eq {i : Instr} {s : State} {rd : Reg} {v w len : Word} (hi : exec i s = writeTo s len rd v)
    (hv : v = w) : Writes i s rd w len := hv ▸ writes_of_writeTo hi

/-- Settles O6: the encodings by the R format, each result by its lemma about numbers. -/
theorem registerArithmeticResults : Obligations.RegisterArithmeticResults := by
  refine ⟨?_, ?_, ?_, ?_, ?_, ?_, ?_, ?_, ?_, ?_, fun s rd rs1 rs2 =>
    ⟨writes_of_writeTo_eq rfl (add_eq_wordOf ..), writes_of_writeTo_eq rfl (sub_eq_wordOf ..),
      writes_of_writeTo_eq rfl (and_eq_ofNat ..), writes_of_writeTo_eq rfl (or_eq_ofNat ..),
      writes_of_writeTo_eq rfl (xor_eq_ofNat ..), writes_of_writeTo_eq rfl (boolWord_eq_bitOf (ltS_iff ..)),
      writes_of_writeTo_eq rfl (boolWord_eq_bitOf (ltU_iff ..)), writes_of_writeTo_eq rfl (shiftLeft_eq_ofNat ..),
      writes_of_writeTo_eq rfl (ushiftRight_eq_ofNat ..), writes_of_writeTo_eq rfl (sshiftRight_eq_wordOf ..)⟩⟩
  all_goals exact encodedR_of_reads (by decide) fun w h0 h3 h7 => by simp only [decode32, h0, decOp, h7, h3]

/-- Settles O7: the encodings by the I format and the shift-immediate form, each result by its lemma about numbers. -/
theorem immediateArithmeticResults : Obligations.ImmediateArithmeticResults := by
  refine ⟨?_, ?_, ?_, ?_, ?_, ?_, ?_, ?_, ?_, fun s rd rs1 imm =>
    ⟨writes_of_writeTo_eq rfl (add_sext12_eq_wordOf ..), writes_of_writeTo rfl, writes_of_writeTo rfl,
      writes_of_writeTo rfl, writes_of_writeTo_eq rfl (boolWord_eq_bitOf (ltS_sext12_iff ..)),
      writes_of_writeTo_eq rfl (boolWord_eq_bitOf (ltU_iff ..))⟩, fun s rd rs1 shamt =>
    ⟨writes_of_writeTo_eq rfl (shiftLeft_eq_ofNat ..), writes_of_writeTo_eq rfl (ushiftRight_eq_ofNat ..),
      writes_of_writeTo_eq rfl (sshiftRight_eq_wordOf ..)⟩⟩
  case refine_1 | refine_2 | refine_3 | refine_4 | refine_5 | refine_6 =>
    exact encodedI_of_reads (by decide) fun w h0 h3 => by simp only [decode32, h0, decOpImm, h3]
  case refine_7 =>
    exact encodedShift_of_reads fun w h0 h3 h7 => by simp only [decode32, h0, decOpImm, h3, decShiftLeft, h7]
  case refine_8 | refine_9 =>
    exact encodedShift_of_reads fun w h0 h3 h7 => by simp only [decode32, h0, decOpImm, h3, decShiftRight, h7]

end Sys2Proof.Machine
end

section
/-!
Entering an exception and returning from it: ECALL, the breakpoint instructions and MRET (40_rv32e_base.md R247 to R249,
43_zca.md R319, 60_exceptions.md R410 to R416, R466).
-/

namespace Sys2Proof.Machine

/-! ## Frames -/

theorem sameRegsBut_of_regs {s t : State} (h : t.regs = s.regs) (l : List Reg) : SameRegsBut l s t :=
  fun r _ => x_of_regs h r

theorem sameMem_of_mem {s t : State} (h : t.mem = s.mem) : SameMem s t := fun _ _ => by rw [h]

/-- Whether minstret counts depends on the build, on MIR, and on debug mode and STOPCOUNT alone (10_state.md R49). -/
theorem counting_congr {s t : State} (hcfg : t.cfg = s.cfg) (hmir : t.ctr.mir = s.ctr.mir)
    (hmode : t.dbg.debugMode = s.dbg.debugMode) (hstop : t.dbg.stopcount = s.dbg.stopcount) : Counting t ↔ Counting s := by
  rw [Counting, Counting, hcfg, hmir, hmode, hstop]

/-- A count is one from every state with the same minstret that counts where this one does. -/
theorem CountedOne.of_counting {s t u : State} (h : CountedOne t u) (hcounting : Counting t ↔ Counting s)
    (hminstret : t.ctr.minstret = s.ctr.minstret) : CountedOne s u := by
  rwa [CountedOne, hcounting, hminstret] at h

/-! ## Exception entry (60_exceptions.md R410) -/

/-- The common trap entry is mtvec without its six low bits (R412). -/
theorem trapBase_eq (s : State) : s.trapBase = csrRead s .mtvec &&& 0xFFFFFFC0 := by
  have mask : (0xFFFFFFC0 : Word) = BitVec.allOnes 26 ++ (0 : BitVec 6) := by decide
  rw [csrRead, mask, BitVec.and_append, BitVec.and_allOnes, State.trapBase]
  rfl

@[simp] theorem enterException_csr (s : State) (code : Nat) :
    (enterException s code).csr =
      { s.csr with
        mepc := normPc (clearBit0 s.pc), causeCode := BitVec.ofNat 9 code, causeInt := false
        mpie := s.csr.mie, mie := false, exptVld := true } := by
  simp [enterException]

theorem enterException_dbg (s : State) (code : Nat) :
    (enterException s code).dbg = if s.hasDebug then { s.dbg with mpte := s.dbg.mte, mte := false } else s.dbg := by
  rw [enterException, State.saveMte]
  split <;> rfl

@[simp] theorem enterException_debugMode (s : State) (code : Nat) :
    (enterException s code).dbg.debugMode = s.dbg.debugMode := by
  rw [enterException_dbg]
  split <;> rfl

@[simp] theorem enterException_stopcount (s : State) (code : Nat) :
    (enterException s code).dbg.stopcount = s.dbg.stopcount := by
  rw [enterException_dbg]
  split <;> rfl

@[simp] theorem enterException_pc (s : State) (code : Nat) :
    (enterException s code).pc = normPc (csrRead s .mtvec &&& 0xFFFFFFC0) := by
  rw [← trapBase_eq, enterException, State.trapBase, saveMte_csr]
  rfl

@[simp] theorem enterException_trapStack (s : State) (code : Nat) :
    (enterException s code).trapStack = .exc :: s.trapStack := by
  simp [enterException]

@[simp] theorem enterException_hasDebug (s : State) (code : Nat) : (enterException s code).hasDebug = s.hasDebug := by
  simp [State.hasDebug]

/-- mepc receives a pc that the machine can hold as it is (10_state.md R27, R28, R43). -/
theorem normPc_clearBit0_of_held {v : Word} (heven : v.getLsbD 0 = false) (hheld : normPc v = v) :
    normPc (clearBit0 v) = v := by rw [clearBit0_of_even heven, hheld]

/-! ## MRET (60_exceptions.md R414) -/

@[simp] theorem returnFromTrap_csr (s : State) :
    (returnFromTrap s).csr = { s.csr with mie := s.csr.mpie, mpie := true, exptVld := false } := rfl

@[simp] theorem returnFromTrap_dbg (s : State) :
    (returnFromTrap s).dbg = if s.hasDebug then { s.dbg with mte := s.dbg.mpte } else s.dbg := rfl

@[simp] theorem returnFromTrap_trapStack (s : State) : (returnFromTrap s).trapStack = s.trapStack.tail := by
  rw [returnFromTrap]
  cases s.trapStack <;> rfl

theorem counting_returnFromTrap (s : State) : Counting (returnFromTrap s) ↔ Counting s := by
  refine counting_congr rfl rfl ?_ ?_ <;> rw [returnFromTrap_dbg] <;> split <;> rfl

theorem exec_mret (s : State) : exec .mret s = .next ((returnFromTrap s).retireTo s.csr.mepc) := rfl

/-- minstret counts an MRET by the debug unit it finds. -/
theorem countedOne_mret (s : State) : CountedOne s ((returnFromTrap s).retireTo s.csr.mepc) :=
  (countedOne_retireTo (returnFromTrap s) _).of_counting (counting_returnFromTrap s) rfl

/-- MPP reads 3 (10_state.md R36). -/
theorem mstatusValue_mpp (s : State) : mstatusValue s &&& 0x1800 = 0x1800 := by
  have bits : ∀ a b : Bool, (0x1800 ||| bitAt a 7 ||| bitAt b 3) &&& 0x1800 = (0x1800 : Word) := by decide
  exact bits _ _

/-- Setting MPIE sets bit 27 of mcause (10_state.md R44). -/
theorem mcauseValue_of_mpie {s t : State} (hbeside : mcauseBesideMpie t = mcauseBesideMpie s) (hmpie : t.csr.mpie = true) :
    mcauseValue t = mcauseValue s ||| 0x08000000 := by
  have bit : ∀ b, bitAt b 27 ||| 0x08000000 = bitAt true 27 := by decide
  rw [mcauseValue_eq_or, mcauseValue_eq_or, hbeside, hmpie, BitVec.or_assoc, bit]

/-- Settles O38: MRET returns from the trap and goes on at mepc. -/
theorem trapReturn : Obligations.TrapReturn := by
  refine ⟨by decide, fun s hheld => ⟨_, exec_mret s, by simp [hheld], by simp, mstatusValue_mpp _, ?_, ?_, fun h => by simp [h],
    fun h => by simp [h], by simp, sameRegsBut_of_regs (by simp) _, sameMem_of_mem (by simp), by simp, by simp [SameSystem],
    countedOne_mret s⟩⟩
  · simp [csrRead, mxstatusValue]
  · exact mcauseValue_of_mpie (by simp [mcauseBesideMpie]) (by simp)

/-! ## ECALL -/

theorem exec_ecall (s : State) : exec .ecall s = .next (enterException s 11) := rfl

/-- Settles O36: ECALL enters the exception wherever the hart is; MRET returns to the mepc and MPTE of that entry. -/
theorem ecallIsAlwaysTakenAndReturns : Obligations.EcallIsAlwaysTakenAndReturns := by
  refine ⟨by decide, fun s heven hheld => ?_⟩
  have hmepc : (enterException s 11).csr.mepc = s.pc := by simp [normPc_clearBit0_of_held heven hheld]
  have hcounted : CountedOne s ((returnFromTrap (enterException s 11)).retireTo (enterException s 11).csr.mepc) :=
    (countedOne_mret _).of_counting (counting_congr (by simp) (by simp) (by simp) (by simp)) (by simp)
  have hmte : s.hasDebug = true → (returnFromTrap (enterException s 11)).dbg.mte = s.dbg.mte := fun h => by
    simp [h, enterException_dbg]
  refine ⟨_, _, exec_ecall s, hmepc, by simp, by simp, by simp, by simp, by simp, by simp, by simp,
    sameRegsBut_of_regs (by simp) _, sameMem_of_mem (by simp), by simp, exec_mret _, by rw [retireTo_pc, hmepc, hheld],
    by simp, by simp, by simp, by simp, sameRegsBut_of_regs (by simp) _, sameMem_of_mem (by simp), by simp,
    fun h => by rw [retireTo_dbg, hmte h], by simp [SameSystem], hcounted⟩

/-! ## EBREAK and C.EBREAK -/

theorem exec_breakpointInstruction {i : Instr} (hi : i ∈ [Instr.ebreak, .cEbreak]) (s : State) :
    exec i s = .next (breakpointInstruction s) := by
  fin_cases hi <;> rfl

theorem breakpointInstruction_halts {s : State} (h : s.hasDebug = true ∧ s.dbg.ebreakm = true) :
    breakpointInstruction s = enterDebug s 1 1 := by
  simp [breakpointInstruction, h]

theorem breakpointInstruction_traps {s : State} (h : s.hasDebug = false ∨ s.dbg.ebreakm = false) :
    breakpointInstruction s = enterException s 3 := by
  rcases h with h | h <;> simp [breakpointInstruction, h]

/-- Settles O37: a breakpoint instruction enters debug mode where EBREAKM asks for it, and the exception elsewhere. -/
theorem breakpointInstructions : Obligations.BreakpointInstructions := by
  refine ⟨by decide, by decide, fun s heven hheld i hi => ⟨fun hdebug => ?_, fun hnone => ?_⟩⟩
  · have hexec : exec i s = .next (enterDebug s 1 1) := by
      rw [exec_breakpointInstruction hi, breakpointInstruction_halts hdebug]
    exact ⟨_, hexec, rfl, rfl, rfl, rfl, rfl, sameRegsBut_of_regs rfl _, sameMem_of_mem rfl, rfl⟩
  · have hexec : exec i s = .next (enterException s 3) := by
      rw [exec_breakpointInstruction hi, breakpointInstruction_traps hnone]
    exact ⟨_, hexec, by simp [normPc_clearBit0_of_held heven hheld], by simp, by simp, by simp, by simp, by simp, by simp,
      by simp, by simp, sameRegsBut_of_regs (by simp) _, sameMem_of_mem (by simp), by simp⟩

end Sys2Proof.Machine
end

section
/-!
WFI and the low-power state (40_rv32e_base.md R250, 60_exceptions.md R460 to R462).
-/

namespace Sys2Proof.Machine

/-! ## What wakes the hart -/

theorem highest_isSome_iff (p : Nat → Bool) (n : Nat) : (highest p n).isSome = true ↔ ∃ id < n, p id = true := by
  induction n with
  | zero => simp [highest]
  | succ n ih =>
    rw [highest, Nat.exists_lt_succ_right]
    by_cases h : p n = true
    · simp [h]
    · rw [if_neg h, ih, or_iff_left h]

/-- Some pending source is enabled, or the event has come with WFE = 1 (R462). -/
theorem wakes_iff (s : State) :
    wakes s = true ↔
      (∃ id < 128, isPending s id = true ∧ (sourceOf s id).ie = true) ∨ (s.pins.event = true ∧ s.csr.wfe = true) := by
  simp only [wakes, winner, Bool.or_eq_true, Bool.and_eq_true, highest_isSome_iff, isActive]

/-! ## Sleeping and waking -/

theorem exec_wfi (s : State) : exec .wfi s = .next { s.retire 4 with sleeping := !wakes s } := rfl

/-- A step of a hart that sleeps on only samples the inputs (R460). -/
theorem step_asleep {s : State} (hrunning : Running s) (hsleeping : s.sleeping = true)
    (hasleep : wakes (sample s (nextInput s)) = false) : step s = .next (sample s (nextInput s)) := by
  obtain ⟨hundisturbed, hmode, hrequest, hlockup⟩ := hrunning
  simp [step, boundary_undisturbed hundisturbed, hartBoundary, debugRequest, hmode, hrequest, hlockup, hsleeping, hasleep,
    stepFrom]

/-- A step that runs the instruction at the pc of `u` runs what the bytes there decode to. -/
theorem runsDecoded_of_runInstr {s u : State} (hstep : step s = afterInstr (runInstr u))
    (hbytes : fetchBytes u = fetchBytes s) : RunsDecoded s u := by
  refine ⟨fun hfetch => ⟨fun i hi => ?_, fun e he => ?_⟩, fun herror => ?_⟩
  · rw [hstep, runInstr_of_decode_ok hfetch (by rwa [hbytes])]
  · rw [hstep, runInstr_of_decode_error hfetch (by rwa [hbytes])]
  · rw [hstep, runInstr_of_fetchError herror]

/-- Settles O39: WFI is a retirement that sets the low-power state, a step of the hart that sleeps on samples, and one that
wakes it runs the instruction at the pc. -/
theorem wfiSleepsUntilWoken : Obligations.WfiSleepsUntilWoken := by
  refine ⟨fun s => ?_, wakes_iff, fun s hrunning hsleeping hasleep => ?_, fun s hunhindered _ hwakes => ?_⟩
  · refine ⟨_, exec_wfi s, retire_pc s 4, rfl, sameRegsBut_of_regs (retire_regs s 4) _, sameMem_of_mem (retire_mem s 4),
      retire_stale s 4, ?_, countedOne_retireTo s (s.pc + 4)⟩
    simp [SameSystem, State.retire]
  · exact ⟨step_asleep hrunning hsleeping hasleep, rfl, hsleeping, sameRegsBut_of_regs rfl _, sameMem_of_mem rfl⟩
  · exact runsDecoded_of_runInstr (step_unhindered hunhindered (.inr hwakes)) rfl

end Sys2Proof.Machine
end

section
/-!
Zmmul: the products as words of a number, and what the four multiplies do where the build has a multiplier
(41_zmmul.md R261 to R264).
-/

namespace Sys2Proof.Machine

/-! ## The words of a product as numbers -/

/-- The low word of a product is that of the unsigned product (R261). -/
theorem mul_eq_ofNat (a b : Word) : a * b = BitVec.ofNat 32 (a.toNat * b.toNat) :=
  BitVec.eq_of_toNat_eq (by rw [BitVec.toNat_mul, BitVec.toNat_ofNat])

/-- Bits [63:32] of an integer are its quotient by 2^32 as a word, rounded down (R262, R263). -/
theorem highWord_eq_wordOf (p : Int) : highWord p = wordOf (p / 2 ^ 32) := by
  refine BitVec.eq_of_toNat_eq ?_
  rw [highWord, wordOf, BitVec.extractLsb'_toNat, Nat.shiftRight_eq_div_pow, BitVec.toNat_ofInt, BitVec.toNat_ofInt]
  omega

/-- The high word of an unsigned product (R264). -/
theorem highWord_mul_toNat (a b : Word) : highWord (a.toNat * b.toNat) = BitVec.ofNat 32 (a.toNat * b.toNat / 2 ^ 32) :=
  calc
    highWord (a.toNat * b.toNat) = wordOf ((a.toNat * b.toNat : Int) / 2 ^ 32) := highWord_eq_wordOf _
    _ = wordOf ((a.toNat * b.toNat / 2 ^ 32 : Nat) : Int) := by push_cast; rfl
    _ = BitVec.ofNat 32 (a.toNat * b.toNat / 2 ^ 32) := BitVec.ofInt_natCast ..

/-! ## The instructions -/

theorem hasMul_eq_true {s : State} (h : s.cfg.mul ≠ .none) : hasMul s = true := bne_iff_ne.mpr h

/-- An instruction of an option the build has that writes the word `v`, whose value as a number is `w`. -/
theorem writes_of_gated_eq {i : Instr} {s : State} {b : Bool} {rd : Reg} {v w len : Word}
    (hi : exec i s = gated b s (writeTo s len rd v)) (hb : b = true) (hv : v = w) : Writes i s rd w len :=
  hv ▸ writes_of_gated hi hb

/-- Settles O9: the encodings by the R format, each result by its lemma about numbers. -/
theorem multiplyResults : Obligations.MultiplyResults := by
  refine ⟨?_, ?_, ?_, ?_, fun s rd rs1 rs2 hmul => ?_⟩
  case refine_5 =>
    have present : hasMul s = true := hasMul_eq_true hmul
    exact ⟨writes_of_gated_eq rfl present (mul_eq_ofNat ..), writes_of_gated_eq rfl present (highWord_eq_wordOf _),
      writes_of_gated_eq rfl present (highWord_eq_wordOf _), writes_of_gated_eq rfl present (highWord_mul_toNat ..)⟩
  all_goals exact encodedR_of_reads (by decide) fun w h0 h3 h7 => by simp only [decode32, h0, decOp, h7, h3]

end Sys2Proof.Machine
end

section
/-!
Compressed instructions and their 32-bit expansions (43_zca.md R310): the immediates of the expansion, and one lemma for each
shape of an instruction that says when two instructions of it differ in the pc only.
-/

namespace Sys2Proof.Machine

/-! ## Two retirements of one state (10_state.md R26, R49) -/

/-- Counting a retired instruction looks neither at the registers nor at the pc. -/
theorem countRetired_withRegsPc (s : State) (regs : Vector Word 16) (v : Word) :
    ({ s with regs := regs, pc := v }).countRetired = { s.countRetired with regs := regs, pc := v } := by
  have hcounts : countsRetired { s with regs := regs, pc := v } = countsRetired s := rfl
  unfold State.countRetired
  rw [hcounts]
  split <;> rfl

theorem retireTo_eq (s : State) (target : Word) :
    s.retireTo target = { s.countRetired with regs := s.regs, pc := normPc target } :=
  countRetired_withRegsPc s s.regs (normPc target)

/-- Where an instruction goes on decides the pc and nothing else. -/
theorem retireTo_eq_withPc (s : State) (v w : Word) : s.retireTo v = { s.retireTo w with pc := normPc v } := by
  rw [retireTo_eq, retireTo_eq]

/-- Writing a register before or after a retirement is the same. -/
theorem setX_retireTo (s : State) (r : Reg) (v target : Word) :
    (s.retireTo target).setX r v = (s.setX r v).retireTo target := by
  by_cases hr : r = 0
  · rw [hr, setX_zero, setX_zero]
  · have hset : ∀ u : State, u.setX r v = { u with regs := u.regs.set r.val v } := fun _ => if_neg hr
    rw [hset, hset, retireTo_eq s]
    exact (countRetired_withRegsPc s _ _).symm

/-- The second of two writes of a register stands. -/
theorem setX_setX (s : State) (r : Reg) (v w : Word) : (s.setX r v).setX r w = s.setX r w := by
  by_cases hr : r = 0
  · rw [hr, setX_zero, setX_zero, setX_zero]
  · simp [State.setX, hr]

/-! ## The immediates of the expansions (30_encoding.md R157 to R159) -/

theorem sext12_signExtend (imm : BitVec 6) : sext12 (imm.signExtend 12) = sext6 imm := by
  rw [sext12_eq_wordOf, BitVec.toInt_signExtend_of_le (by decide)]
  rfl

theorem branchOffset_signExtend (off : BitVec 8) : branchOffset (off.signExtend 12) = cBranchOffset off := by
  rw [branchOffset, cBranchOffset, signExtend_append_zero, signExtend_append_zero,
    BitVec.toInt_signExtend_of_le (by decide)]

theorem jumpOffset_signExtend (off : BitVec 11) : jumpOffset (off.signExtend 20) = cJumpOffset off := by
  rw [jumpOffset, cJumpOffset, signExtend_append_zero, signExtend_append_zero,
    BitVec.toInt_signExtend_of_le (by decide)]

theorem upperImm_signExtend (imm : BitVec 6) : upperImm (imm.signExtend 20) = cUpperImm imm := by
  refine BitVec.eq_of_toInt_eq ?_
  calc (upperImm (imm.signExtend 20)).toInt
      = 2 ^ 12 * (imm.signExtend 20).toInt := BitVec.toInt_append_zero
    _ = 2 ^ 12 * imm.toInt := by rw [BitVec.toInt_signExtend_of_le (by decide)]
    _ = (imm ++ (0 : BitVec 12)).toInt := BitVec.toInt_append_zero.symm
    _ = (cUpperImm imm).toInt := (BitVec.toInt_signExtend_of_le (by decide)).symm

/-- Sixteen times a six-bit signed value fits in twelve bits. -/
theorem sext12_sixteen_mul (imm : BitVec 6) : sext12 (16 * imm.signExtend 12) = addi16spOffset imm := by
  have hlow := BitVec.le_toInt imm
  have hhigh := BitVec.toInt_lt (x := imm)
  have hfits : (16 * imm.signExtend 12).toInt = 2 ^ 4 * imm.toInt := by
    have h16 : (16 : BitVec 12).toInt = 16 := rfl
    rw [BitVec.toInt_mul, BitVec.toInt_signExtend_of_le (by decide), h16, Int.bmod_eq_of_le] <;> omega
  calc sext12 (16 * imm.signExtend 12)
      = wordOf (2 ^ 4 * imm.toInt) := by rw [sext12_eq_wordOf, hfits]
    _ = wordOf (imm ++ (0 : BitVec 4)).toInt := congrArg wordOf BitVec.toInt_append_zero.symm
    _ = addi16spOffset imm := rfl

/-- An unsigned value below 2^11 keeps its value in a sign extension. -/
theorem sext12_eq_ofNat {v : BitVec 12} (h : v.toNat < 2 ^ 11) : sext12 v = BitVec.ofNat 32 v.toNat := by
  rw [sext12, signExtend_eq_ofNat (by decide), if_pos h]

theorem sext12_setWidth {n : Nat} (hn : n ≤ 11) (x : BitVec n) : sext12 (x.setWidth 12) = x.setWidth 32 := by
  have hx : x.toNat < 2 ^ 11 := Nat.lt_of_lt_of_le x.isLt (Nat.pow_le_pow_right (by decide) hn)
  have hnat : (x.setWidth 12).toNat = x.toNat := by
    rw [BitVec.toNat_setWidth, Nat.mod_eq_of_lt (by omega)]
  rw [sext12_eq_ofNat (hnat ▸ hx), hnat, BitVec.ofNat_toNat]

/-- A scaled unsigned offset of at most eleven bits, as the expansion and as the compressed instruction spell it. -/
theorem sext12_scaled {n k : Nat} (h : n + k ≤ 11) (x : BitVec n) :
    sext12 (BitVec.ofNat 12 (2 ^ k) * x.setWidth 12) = (x ++ (0 : BitVec k)).setWidth 32 := by
  have hwide : (x ++ (0 : BitVec k)).toNat = 2 ^ k * x.toNat := by
    rw [toNat_append_eq_add, Nat.mul_comm]
    simp
  have hscaled : BitVec.ofNat 12 (2 ^ k) * x.setWidth 12 = (x ++ (0 : BitVec k)).setWidth 12 := by
    refine BitVec.eq_of_toNat_eq ?_
    rw [BitVec.toNat_mul, BitVec.toNat_ofNat, BitVec.toNat_setWidth, BitVec.toNat_setWidth, hwide, ← Nat.mul_mod]
  rw [hscaled, sext12_setWidth h]

theorem zextByte_eq_and (v : Word) : zextByte v = v &&& sext12 0xFF := by
  have hmask : sext12 0xFF = BitVec.ofNat 32 (2 ^ 8 - 1) := rfl
  refine BitVec.eq_of_toNat_eq ?_
  rw [hmask, and_eq_ofNat, zextByte, BitVec.toNat_ofNat, BitVec.toNat_ofNat, BitVec.toNat_setWidth,
    BitVec.extractLsb'_toNat, Nat.shiftRight_zero, Nat.mod_eq_of_lt (a := 2 ^ 8 - 1) (by decide),
    Nat.and_two_pow_sub_one_eq_mod]

theorem not_eq_xor (v : Word) : ~~~v = v ^^^ sext12 0xFFF := by
  have hones : sext12 0xFFF = BitVec.allOnes 32 := by decide
  rw [hones, BitVec.xor_allOnes]

theorem add_sext12_zero (v : Word) : v + sext12 0 = v := BitVec.add_zero v

/-! ## Instructions that retire alike (43_zca.md R310) -/

/-- Two instructions that retire from one state, the one with 2 bytes and the other with 4. -/
theorem retiresLike_of_retire {c f : Instr} {s t : State} (hpc : t.pc = s.pc) (hc : exec c s = .next (t.retire 2))
    (hf : exec f s = .next (t.retire 4)) : RetiresLike c f s :=
  ⟨_, _, hc, hf, by rw [retire_pc, hpc], by rw [← hpc]; exact retireTo_eq_withPc ..⟩

theorem retiresLike_of_writeTo {c f : Instr} {s : State} {rd : Reg} {v w : Word} (hc : exec c s = writeTo s 2 rd v)
    (hf : exec f s = writeTo s 4 rd w) (h : v = w) : RetiresLike c f s :=
  retiresLike_of_retire (setX_pc s rd v) hc (h ▸ hf)

/-- A result written to x0 is dropped. -/
theorem writeTo_zero (s : State) (len v : Word) : writeTo s len 0 v = .next (s.retire len) := by
  rw [writeTo, setX_zero]

/-- Two instructions of options the build has, that write the same word. -/
theorem retiresLike_of_gated {c f : Instr} {s : State} {a b : Bool} {rd : Reg} {v : Word}
    (hc : exec c s = gated a s (writeTo s 2 rd v)) (ha : a = true)
    (hf : exec f s = gated b s (writeTo s 4 rd v)) (hb : b = true) : RetiresLike c f s :=
  retiresLike_of_writeTo (hc.trans (gated_present ha ..)) (hf.trans (gated_present hb ..)) rfl

/-- Two branches that are not taken. -/
theorem retiresLike_of_branchTo {c f : Instr} {s : State} {a b : Bool} {v w : Word} (hc : exec c s = branchTo s 2 a v)
    (ha : a = false) (hf : exec f s = branchTo s 4 b w) (hb : b = false) : RetiresLike c f s :=
  retiresLike_of_retire rfl (by rw [hc, ha]; rfl) (by rw [hf, hb]; rfl)

/-! ## Accesses alike -/

/-- The exceptions of data accesses (60_exceptions.md R402). -/
abbrev AccessCode (code : Nat) : Prop := code ∈ [4, 5, 6, 7]

theorem accessCode_of_loadMem {s : State} {w : Width} {a : Word} {code : Nat} (h : loadMem s w a = .exc code) :
    AccessCode code := by
  unfold loadMem at h
  split at h
  · cases h; decide
  · split at h
    · split at h <;> cases h
    · split at h
      · cases h
      · split at h <;> cases h
        decide

theorem storeSource_ne_exc {s : State} {id : Nat} {ip ie attr : Option Byte} {code : Nat} :
    storeSource s id ip ie attr ≠ .exc code := by
  unfold storeSource
  split <;> nofun

/-- A store to the TCIP window completes or is refused. -/
theorem tcipWrite_ne_exc {s : State} {w : Width} {a : Nat} {v : Word} {code : Nat} : tcipWrite s w a v ≠ .exc code := by
  cases w with
  | half => nofun
  | byte =>
    simp only [tcipWrite]
    split
    case h_1 | h_2 | h_3 => exact storeSource_ne_exc
    case h_4 | h_5 => nofun
  | word =>
    simp only [tcipWrite]
    split_ifs
    case pos | pos | pos => nofun
    case neg =>
      split
      · exact storeSource_ne_exc
      · nofun

theorem accessCode_of_storeMem {s : State} {w : Width} {a v : Word} {code : Nat} (h : storeMem s w a v = .exc code) :
    AccessCode code := by
  unfold storeMem at h
  split at h
  · cases h; decide
  · split at h
    · exact absurd h tcipWrite_ne_exc
    · split at h
      · cases h
      · split at h <;> cases h
        decide

theorem pc_of_loadMem {s t : State} {w : Width} {a v : Word} (h : loadMem s w a = .ok (v, t)) : t.pc = s.pc := by
  rw [loadMem_frame h]

theorem pc_of_storeMem {s t : State} {w : Width} {a v : Word} (h : storeMem s w a v = .ok t) : t.pc = s.pc := by
  rcases storeMem_ok h with ⟨_, rfl⟩ | ⟨_, rfl⟩ | ⟨_, _, ht⟩
  · rfl
  · rfl
  · obtain ⟨c, rfl⟩ := tcipWrite_ok ht
    rfl

/-- Two instructions that make the same access and, where it completes, go on to the same state and retire. -/
theorem accessesLike_of_elim {α : Type} {c f : Instr} {s : State} {r : Res α} {k : α → State}
    (hc : exec c s = r.elim s fun v => .next ((k v).retire 2)) (hf : exec f s = r.elim s fun v => .next ((k v).retire 4))
    (hpc : ∀ v, r = .ok v → (k v).pc = s.pc) (hcode : ∀ code, r = .exc code → AccessCode code) : AccessesLike c f s := by
  cases r with
  | ok v => exact .inl (retiresLike_of_retire (hpc v rfl) hc hf)
  | exc code =>
    refine .inr ⟨hc.trans hf.symm, fun t ht => ⟨code, hcode code rfl, ?_⟩⟩
    exact (Host.Outcome.next.inj (hf.symm.trans ht)).symm
  | fault e => exact .inr ⟨hc.trans hf.symm, fun t ht => nomatch hf.symm.trans ht⟩
  | refused e => exact .inr ⟨hc.trans hf.symm, fun t ht => nomatch hf.symm.trans ht⟩

theorem accessesLike_of_loadTo {c f : Instr} {s : State} {w : Width} {rd : Reg} {a b : Word} {ext : Word → Word}
    (hc : exec c s = loadTo s 2 w rd a ext) (hf : exec f s = loadTo s 4 w rd b ext) (h : b = a) : AccessesLike c f s :=
  accessesLike_of_elim (r := loadMem s w a) (k := fun r => r.2.setX rd (ext r.1)) hc (h ▸ hf)
    (fun _ hr => (setX_pc ..).trans (pc_of_loadMem hr)) fun _ => accessCode_of_loadMem

theorem accessesLike_of_storeFrom {c f : Instr} {s : State} {w : Width} {a b v : Word}
    (hc : exec c s = storeFrom s 2 w a v) (hf : exec f s = storeFrom s 4 w b v) (h : b = a) : AccessesLike c f s :=
  accessesLike_of_elim (r := storeMem s w a v) (k := id) hc (h ▸ hf) (fun _ => pc_of_storeMem) fun _ => accessCode_of_storeMem

/-- The base plus a scaled offset, as the expansion and as the compressed instruction spell it. -/
theorem effAddr_scaled {n k : Nat} (h : n + k ≤ 11) (s : State) (rs1 : Reg) (x : BitVec n) :
    effAddr s rs1 (BitVec.ofNat 12 (2 ^ k) * x.setWidth 12) = s.x rs1 + (x ++ (0 : BitVec k)).setWidth 32 := by
  rw [effAddr, sext12_scaled h]

theorem effAddr_setWidth (s : State) (rs1 : Reg) (x : BitVec 2) :
    effAddr s rs1 (x.setWidth 12) = s.x rs1 + cByteOffset x := by
  rw [effAddr, sext12_setWidth (by decide), cByteOffset]

/-! ## Jumps and branches -/

/-- Two jumps to the same target that link in x1: only the link differs. -/
theorem links_of_jumpLink_ra {c f : Instr} {s : State} {v w : Word} (hc : exec c s = jumpLink s 2 1 v)
    (hf : exec f s = jumpLink s 4 1 w) (h : v = w) :
    ∃ u, exec f s = .next u ∧ u.x 1 = s.pc + 4 ∧ exec c s = .next (u.setX 1 (s.pc + 2)) := by
  refine ⟨_, hf, ?_, ?_⟩
  · rw [x_retireTo, x_setX_same s _ (by decide)]
  · rw [hc, h, setX_retireTo, setX_setX, jumpLink]

/-- A jump that does not link and one that links in x0, to the same target. -/
theorem exec_eq_of_jumpLink_zero {c f : Instr} {s : State} {v w : Word} (hc : exec c s = .next (s.retireTo v))
    (hf : exec f s = jumpLink s 4 0 w) (h : v = w) : exec c s = exec f s := by
  rw [hc, hf, h, jumpLink, setX_zero]

/-- Two branches that are taken, with the same target. -/
theorem exec_eq_of_branchTo {c f : Instr} {s : State} {a b : Bool} {v w : Word} (hc : exec c s = branchTo s 2 a v)
    (ha : a = true) (hf : exec f s = branchTo s 4 b w) (hb : b = true) (h : v = w) : exec c s = exec f s := by
  rw [hc, hf, ha, hb, h]
  rfl

/-! ## The statement -/

theorem hasZcbExt_of_hasB {s : State} (h : s.cfg.hasB = true) : hasZcbExt s = true := by
  rw [hasZcbExt, h, Bool.true_or]

/-- Settles O16: each pair by the lemma about its shape, where the two spellings of its immediate are the same word. -/
theorem compressedEqualsExpansion : Obligations.CompressedEqualsExpansion := by
  intro s rd rs2 c1 c2 imm nzuimm shamt imm5 imm2 imm1 off8 off11
  simp only [List.forall_mem_cons, List.not_mem_nil, false_imp_iff, implies_true, and_true]
  have jump : s.pc + cJumpOffset off11 = s.pc + jumpOffset (off11.signExtend 20) := by rw [jumpOffset_signExtend]
  have indirect : clearBit0 (s.x rd) = clearBit0 (s.x rd + sext12 0) := by rw [add_sext12_zero]
  refine ⟨?arithmetic, fun hB => ?extensions, fun hmul => ?product, ?accesses, exec_eq_of_jumpLink_zero rfl rfl jump,
    exec_eq_of_jumpLink_zero rfl rfl indirect, rfl,
    ⟨links_of_jumpLink_ra rfl rfl jump, links_of_jumpLink_ra rfl rfl indirect⟩, ?branches⟩
  case arithmetic =>
    refine ⟨?cAdd, ?cAddi, ?cAddi4spn, ?cAddi16sp, ?cMv, ?cLi, ?cLui, ?cSlli, ?cSub, ?cAnd, ?cOr, ?cXor, ?cAndi, ?cSrli,
      ?cSrai, ?cNop, ?cZextB, ?cNot⟩
    case cAdd | cSlli | cSub | cAnd | cOr | cXor | cSrli | cSrai => exact retiresLike_of_writeTo rfl rfl rfl
    case cAddi | cAndi => exact retiresLike_of_writeTo rfl rfl (by rw [sext12_signExtend])
    case cAddi4spn => exact retiresLike_of_writeTo rfl rfl (effAddr_scaled (k := 2) (by decide) s 2 nzuimm).symm
    case cAddi16sp => exact retiresLike_of_writeTo rfl rfl (by rw [sext12_sixteen_mul]; rfl)
    case cMv => exact retiresLike_of_writeTo rfl rfl (by rw [x_zero, zero_add])
    case cLi => exact retiresLike_of_writeTo rfl rfl (by rw [x_zero, zero_add, sext12_signExtend])
    case cLui => exact retiresLike_of_writeTo rfl rfl (upperImm_signExtend imm).symm
    case cNop => exact retiresLike_of_retire rfl rfl (writeTo_zero ..)
    case cZextB => exact retiresLike_of_writeTo rfl rfl (zextByte_eq_and _)
    case cNot => exact retiresLike_of_writeTo rfl rfl (not_eq_xor _)
  case extensions =>
    have hext := hasZcbExt_of_hasB hB
    exact ⟨retiresLike_of_gated rfl hext rfl hB, retiresLike_of_gated rfl hext rfl hB,
      retiresLike_of_gated rfl hext rfl hB⟩
  case product => exact retiresLike_of_gated rfl (hasMul_eq_true hmul) rfl (hasMul_eq_true hmul)
  case accesses =>
    have word5 := effAddr_scaled (k := 2) (by decide) s (creg c2) imm5
    have word6 := effAddr_scaled (k := 2) (by decide) s 2 imm
    have half := effAddr_scaled (k := 1) (by decide) s (creg c2) imm1
    have byte := effAddr_setWidth s (creg c2) imm2
    exact ⟨accessesLike_of_loadTo rfl rfl word5, accessesLike_of_loadTo rfl rfl word6,
      accessesLike_of_storeFrom rfl rfl word5, accessesLike_of_storeFrom rfl rfl word6,
      accessesLike_of_loadTo rfl rfl byte, accessesLike_of_loadTo rfl rfl half, accessesLike_of_loadTo rfl rfl half,
      accessesLike_of_storeFrom rfl rfl byte, accessesLike_of_storeFrom rfl rfl half⟩
  case branches =>
    have target : cBranchOffset off8 = branchOffset (off8.signExtend 12) := (branchOffset_signExtend off8).symm
    split
    case isTrue hzero =>
      have heq : (s.x (creg c1) == 0) = true := beq_iff_eq.mpr hzero
      have hne : (s.x (creg c1) != 0) = false := bne_eq_false_iff_eq.mpr hzero
      exact ⟨exec_eq_of_branchTo rfl heq rfl heq target, retiresLike_of_branchTo rfl hne rfl hne⟩
    case isFalse hnonzero =>
      have heq : (s.x (creg c1) == 0) = false := beq_eq_false_iff_ne.mpr hnonzero
      have hne : (s.x (creg c1) != 0) = true := bne_iff_ne.mpr hnonzero
      exact ⟨retiresLike_of_branchTo rfl heq rfl heq, exec_eq_of_branchTo rfl hne rfl hne target⟩

end Sys2Proof.Machine
end

section
/-!
Arbitration among the interrupt sources (60_exceptions.md R421), and an interrupt inside an interrupt handler (R427).
-/

namespace Sys2Proof.Machine

/-! ## Arbitration (60_exceptions.md R421) -/

/-- The largest number below `n` that satisfies `p`, by induction on the bound. -/
theorem highest_eq_some_iff {p : Nat → Bool} {n id : Nat} :
    highest p n = some id ↔ id < n ∧ p id = true ∧ ∀ j < n, id < j → ¬ p j = true := by
  induction n with
  | zero => simp [highest]
  | succ n ih =>
    rw [highest]
    split
    case isTrue hn =>
      refine ⟨?_, fun ⟨hid, _, hmax⟩ => ?_⟩
      · intro heq
        obtain rfl : n = id := Option.some.inj heq
        exact ⟨Nat.lt_succ_self n, hn, fun j hj hlt => by omega⟩
      · have hge : ¬ id < n := fun hlt => hmax n (Nat.lt_succ_self n) hlt hn
        exact congrArg some (by omega)
    case isFalse hn =>
      rw [ih]
      refine ⟨fun ⟨hid, hp, hmax⟩ => ⟨by omega, hp, fun j hj hlt => ?_⟩,
        fun ⟨hid, hp, hmax⟩ => ⟨?_, hp, fun j hj => ?_⟩⟩
      · rcases Nat.lt_succ_iff_lt_or_eq.mp hj with hj | rfl
        · exact hmax j hj hlt
        · exact hn
      · rcases Nat.lt_succ_iff_lt_or_eq.mp hid with hid | rfl
        · exact hid
        · exact absurd hp hn
      · exact hmax j (by omega)

theorem highest_eq_none_iff {p : Nat → Bool} {n : Nat} : highest p n = none ↔ ∀ j < n, ¬ p j = true := by
  rw [← Option.not_isSome_iff_eq_none, highest_isSome_iff]
  simp only [not_exists, not_and]

theorem isActive_iff (s : State) (id : Nat) :
    isActive s id = true ↔ isPending s id = true ∧ (sourceOf s id).ie = true := by
  rw [isActive, Bool.and_eq_true]

/-- Settles O40: arbitration is a search for the largest active number. -/
theorem largestActiveIdWins : Obligations.LargestActiveIdWins := by
  intro s
  simp only [← isActive_iff]
  refine ⟨fun id => ?_, highest_eq_none_iff⟩
  rw [winner, highest_eq_some_iff, isActive_iff, and_assoc]

/-! ## An interrupt inside an interrupt handler (60_exceptions.md R427) -/

theorem interruptsOn_of_takesInterrupts {s : State} (h : TakesInterrupts s) : interruptsOn s = true := by
  obtain ⟨hmie, h | h | h⟩ := h <;> simp [interruptsOn, hmie, h]

/-- A source that wins arbitration wakes the hart (R461). -/
theorem wakes_of_winner {s : State} {id : Nat} (h : winner s = some id) : wakes s = true := by
  simp [wakes, h]

/-- At the boundary of a hart that runs, a winning interrupt comes before anything else. -/
theorem step_of_winner {s : State} {id : Nat} (hrunning : Running s) (htakes : TakesInterrupts s)
    (hwinner : winner (sample s (nextInput s)) = some id) :
    step s = stepFrom (sample s (nextInput s))
      (if inIrq (sample s (nextInput s)) then .fault .nestedInterrupt else .interrupt id) := by
  obtain ⟨hundisturbed, hmode, hrequest, hlockup⟩ := hrunning
  have hon : interruptsOn (sample s (nextInput s)) = true := interruptsOn_of_takesInterrupts htakes
  simp [step, boundary_undisturbed hundisturbed, hartBoundary, debugRequest, hmode, hrequest, hlockup,
    wakes_of_winner hwinner, interruptBoundary, hon, hwinner]

/-- Settles O43: the interrupt comes before anything else, and the ghost stack holds an interrupt. -/
theorem nestedInterruptFaults : Obligations.NestedInterruptFaults := by
  intro s hrunning htakes hstack hwinner
  obtain ⟨id, hid⟩ := Option.ne_none_iff_exists'.mp hwinner
  have hnested : inIrq (sample s (nextInput s)) = true := hstack
  rw [step_of_winner hrunning htakes hid, if_pos hnested, stepFrom]

end Sys2Proof.Machine
end

section
/-!
Entering an exception outside a handler, the lockup inside one, and the end of a lockup (60_exceptions.md R410, R416, R417).
-/

namespace Sys2Proof.Machine

/-! ## Exception entry (60_exceptions.md R410) -/

/-- A code below 2^8 in the nine bits of mcause that hold it (10_state.md R44). -/
theorem setWidth_ofNat_code {code : Nat} (h : code < 2 ^ 8) : (BitVec.ofNat 9 code).setWidth 32 = BitVec.ofNat 32 code := by
  refine BitVec.eq_of_toNat_eq ?_
  simp only [BitVec.toNat_setWidth, BitVec.toNat_ofNat]
  omega

/-- Bit 30 of mcause is MINHV: the fields beside it lie elsewhere (10_state.md R44). -/
theorem mcauseValue_minhv (s : State) : mcauseValue s &&& 0x40000000 = bitAt s.csr.minhv 30 := by
  have flags : ∀ a b c, (bitAt a 31 ||| bitAt b 30 ||| 0x30000000 ||| bitAt c 27) &&& 0x40000000 = bitAt b 30 := by decide
  have code : s.csr.causeCode.setWidth 32 &&& 0x40000000 = 0#32 := by
    have position : (0x40000000 : Word) = BitVec.twoPow 32 30 := by decide
    simp [position, BitVec.and_twoPow]
  rw [mcauseValue, BitVec.and_or_distrib_right, flags, code, BitVec.or_zero]

/-- What mcause reads after an exception entry (10_state.md R44). -/
theorem mcauseValue_enterException (s : State) {code : Nat} (h : code < 2 ^ 8) :
    mcauseValue (enterException s code) =
      (mcauseValue s &&& 0x40000000) ||| 0x30000000 ||| (if s.csr.mie then 0x08000000 else 0) ||| BitVec.ofNat 32 code := by
  have mirror : ∀ b, bitAt b 27 = if b then 0x08000000 else 0 := by decide
  have interrupt : bitAt false 31 = 0#32 := rfl
  rw [mcauseValue_minhv, mcauseValue, enterException_csr]
  dsimp only
  rw [setWidth_ofNat_code h, mirror, interrupt, BitVec.zero_or]

/-- Settles O34: outside a handler the exception is entered, and its entry keeps everything the statement does not name. -/
theorem exceptionEntry : Obligations.ExceptionEntry := by
  intro s code houtside heven hheld
  refine ⟨_, raise_outside houtside code, by simp [normPc_clearBit0_of_held heven hheld], by simp, by simp, by simp, by simp,
    by simp, mcauseValue_enterException s, fun h => by rw [enterException_dbg, if_pos h],
    fun h => by rw [enterException_dbg, h]; rfl, enterException_pc s code, by simp, enterException_trapStack s code,
    sameRegsBut_of_regs (enterException_regs s code) _, sameMem_of_mem (enterException_mem s code), by simp, by simp,
    by simp [SameSystem]⟩

/-! ## Lockup (60_exceptions.md R416, R417) -/

/-- A step of a locked-up hart without a debug request only samples the inputs. -/
theorem step_lockedUp {s : State} (hundisturbed : Undisturbed s) (hlockup : s.csr.lockup = true)
    (hmode : s.dbg.debugMode = false) (hrequest : (nextInput s).request = none) :
    step s = .next (sample s (nextInput s)) := by
  simp [step, boundary_undisturbed hundisturbed, hartBoundary, debugRequest, hmode, hrequest, hlockup, stepFrom]

/-- A halted hart executes the debugger's command. -/
theorem step_command {s : State} {c : DebugCommand} (h : Halted s) (hc : (nextInput s).command = some c) :
    step s = debugCommand (sample s (nextInput s)) c := by
  obtain ⟨hundisturbed, hmode⟩ := h
  simp [step, boundary_undisturbed hundisturbed, hartBoundary, hmode, hc, stepFrom]

/-- The resume goes to dpc as the pc register holds it (R467). -/
theorem leaveDebug_pc {s : State} (hlow : LowPc s.dbg.dpc) (heven : s.dbg.dpc.getLsbD 0 = false) :
    (leaveDebug s).pc = s.dbg.dpc :=
  normPc_clearBit0_of_held heven (normPc_low hlow)

@[simp] theorem leaveDebug_dbg (s : State) : (leaveDebug s).dbg = { s.dbg with debugMode := false } := rfl

@[simp] theorem leaveDebug_trapStack (s : State) : (leaveDebug s).trapStack = [] := rfl

/-- A resume without a lockup, or at 0x1FFFFC, leaves the CSRs (R417). -/
theorem leaveDebug_csr_stays {s : State} (h : s.csr.lockup = false ∨ s.dbg.dpc = 0x1FFFFC) :
    (leaveDebug s).csr = s.csr := by
  rcases h with h | h <;> simp [leaveDebug, lockupResumePc, h]

/-- A resume at any other address ends a lockup (R417). -/
theorem leaveDebug_csr_ends {s : State} (hlockup : s.csr.lockup = true) (h : s.dbg.dpc ≠ 0x1FFFFC) :
    (leaveDebug s).csr = { s.csr with lockup := false, exptVld := false } := by
  have moves : (s.dbg.dpc == lockupResumePc) = false := beq_eq_false_iff_ne.mpr h
  simp [leaveDebug, hlockup, moves]

/-- Settles O35: an exception in a handler sets LOCKUP, a locked-up hart only samples, and the resume decides by dpc. -/
theorem lockupIsStuck : Obligations.LockupIsStuck := by
  refine ⟨fun s code h => raise_inside h code, fun s hundisturbed hlockup hmode hrequest => ?_,
    fun s hhalted hlockup hc hlow heven => ?_⟩
  · exact ⟨_, step_lockedUp hundisturbed hlockup hmode hrequest, rfl, sameRegsBut_of_regs rfl _, sameMem_of_mem rfl, hlockup,
      rfl, rfl, rfl, rfl, sample_minstret s _, hmode⟩
  · refine ⟨_, step_command hhalted hc, leaveDebug_pc hlow heven, rfl, sameRegsBut_of_regs rfl _, sameMem_of_mem rfl,
      fun h => ?_, fun h => ?_⟩
    · rw [leaveDebug_csr_stays (s := sample s (nextInput s)) (.inr h)]
      exact ⟨hlockup, rfl⟩
    · rw [leaveDebug_csr_ends (s := sample s (nextInput s)) hlockup h]
      exact ⟨rfl, rfl⟩

end Sys2Proof.Machine
end

section
/-!
A reset by the platform (60_exceptions.md R463, 70_reset_and_hazards.md R480 to R482).
-/

namespace Sys2Proof.Machine

/-! ## What a reset of the core leaves (70_reset_and_hazards.md R481) -/

/-- After reset every id reads as a source after reset (60_exceptions.md R446 to R449). -/
theorem sourceOf_of_replicate {s : State} (h : s.clic.sources = Vector.replicate 128 resetSource) (id : Nat) :
    sourceOf s id = resetSource := by
  rw [sourceOf, h, Vector.getElem?_replicate]
  split <;> rfl

/-- Where no source is enabled, none wins. -/
theorem winner_of_replicate {s : State} (h : s.clic.sources = Vector.replicate 128 resetSource) : winner s = none := by
  refine highest_eq_none_iff.mpr fun j _ hactive => ?_
  have hie := ((isActive_iff s j).mp hactive).2
  rw [sourceOf_of_replicate h] at hie
  cases hie

/-- `t` has the values R481 states, in the build of `s` and after the histories of `s`. -/
def Restarted (s t : State) : Prop :=
  t.pc = BitVec.ofNat 32 s.cfg.resetAddr.toNat ∧ csrRead t .mstatus = 0x00001800 ∧
    csrRead t .mtvec = csrRead (State.resetWith s.cfg) .mtvec ∧
    csrRead t .mtvt = csrRead (State.resetWith s.cfg) .mtvt ∧ csrRead t .mcause = 0x30000000 ∧
    csrRead t .mcountinhibit = 0 ∧ csrRead t .mcycle = 0 ∧ csrRead t .minstret = 0 ∧ csrRead t .tcontrol = 0 ∧
    csrRead t .mexstatus = csrRead (State.resetWith s.cfg) .mexstatus ∧
    t.dbg.triggers = s.cfg.triggers.map resetTrigger ∧
    t.clic = { msip := false, mtimecmp := 0xFFFFFFFF, nlbits := 0, sources := Vector.replicate 128 resetSource } ∧
    winner t = none ∧ t.sleeping = false ∧ t.trapStack = [] ∧ t.cfg = s.cfg ∧ t.cop = s.cop ∧ t.devices = s.devices

@[simp] theorem bitAt_false (k : Nat) : bitAt false k = 0 := by simp [bitAt, boolWord]

theorem resetCore_csr (s : State) : (resetCore s).csr = resetCsrs s := rfl

theorem resetCore_dbg (s : State) : (resetCore s).dbg = resetDebug s := rfl

theorem resetCore_ctr (s : State) : (resetCore s).ctr = { mcy := false, mir := false, mcycle := 0, minstret := 0 } := rfl

/-- The values are those of the reset state of the build. -/
theorem restarted_resetCore (s : State) : Restarted s (resetCore s) := by
  have fresh : (State.resetWith s.cfg).cfg = s.cfg := rfl
  refine ⟨(BitVec.ofNat_toNat 32 s.cfg.resetAddr).symm, ?mstatus, ?mtvec, ?mtvt, ?mcause, ?mcountinhibit, ?mcycle,
    ?minstret, ?tcontrol,
    ?mexstatus, rfl, rfl, winner_of_replicate rfl, rfl, rfl, ?cfg, ?cop, ?devices⟩
  case mstatus => simp [csrRead, mstatusValue, resetCore_csr, resetCsrs, State.resetWith]
  case mtvec | mtvt => simp [csrRead, resetCore_csr, resetCsrs]
  case mcause => simp [csrRead, mcauseValue, resetCore_csr, resetCsrs, State.resetWith]
  case mcountinhibit => simp [csrRead, mcountinhibitValue, resetCore_ctr]
  case mcycle | minstret => simp [csrRead, resetCore_ctr]
  case tcontrol => simp [csrRead, resetCore_dbg, resetDebug, State.resetWith]
  case cfg | cop | devices => simp
  case mexstatus => simp [csrRead, mexstatusValue, resetCore_csr, resetCsrs, fresh]

/-- None of the values is one a debug entry changes (60_exceptions.md R466). -/
theorem Restarted.halted {s t : State} (h : Restarted s t) (cause : BitVec 3) (haltcause : BitVec 4) :
    Restarted s (enterDebug t cause haltcause) := by
  obtain ⟨hpc, hmstatus, hmtvec, hmtvt, hmcause, hinhibit, hmcycle, hminstret, htcontrol, hmexstatus, htriggers, hclic, _, _,
    hstack, hcfg, hcop, hdevices⟩ := h
  exact ⟨hpc, hmstatus, hmtvec, hmtvt, hmcause, hinhibit, hmcycle, hminstret, htcontrol, hmexstatus, htriggers, hclic,
    winner_of_replicate (congrArg Clic.sources hclic), rfl, hstack, hcfg, hcop, hdevices⟩

/-- None of the values depends on memory. -/
theorem Restarted.withMem {s t : State} (h : Restarted s t) (mem : List Host.Cell) : Restarted s { t with mem := mem } := h

/-- Sampling the inputs changes neither the build nor the histories. -/
theorem restarted_sample {s t : State} {i : StepInput} : Restarted (sample s i) t ↔ Restarted s t := by
  rw [Restarted, Restarted, sample_cfg, sample_cop, sample_devices]

/-! ## The step -/

/-- The memory a reset leaves: that of the core alone keeps it, after one of the system it is what the platform says. -/
def memAfter (s : State) : PlatformReset → List Host.Cell
  | .core => s.mem
  | .system cells => Memory.ofCells cells

theorem memAfter_sample (s : State) (i : StepInput) (r : PlatformReset) : memAfter (sample s i) r = memAfter s r := by
  cases r <;> rfl

/-- A reset gives the stated values and the memory it leaves; a reset-halt request adds a debug entry. -/
theorem platformReset_cases (s : State) (r : PlatformReset) (halt : Bool) :
    ∃ t, Restarted s t ∧ t.mem = memAfter s r ∧ t.dbg.debugMode = false ∧
      platformReset s r halt = if halt && s.hasDebug then enterDebug t 5 5 else t := by
  have restarted := restarted_resetCore s
  cases r with
  | core => exact ⟨resetCore s, restarted, resetCore_mem s, rfl, by simp [platformReset, State.hasDebug]⟩
  | system cells =>
    exact ⟨{ resetCore s with mem := Memory.ofCells cells }, restarted.withMem _, rfl, rfl, by
      simp [platformReset, State.hasDebug]⟩

/-- In a legal build a reset comes before everything else. -/
theorem step_reset {s : State} {r : PlatformReset} (hwf : s.cfg.wf = true) (hr : (nextInput s).reset = some r) :
    step s = .next (platformReset (sample s (nextInput s)) r ((nextInput s).request == some .resetHalt)) := by
  simp [step, boundary, hwf, hr, stepFrom]

/-- CAUSE lies in bits [8:6] of dcsr (10_state.md R63). -/
theorem dcsrValue_cause (s : State) : (dcsrValue s).extractLsb' 6 3 = s.dbg.cause := by
  have fields : ∀ a b c d e : Bool, ∀ cause : BitVec 3,
      (0x40000000#32 ||| bitAt a 15 ||| bitAt b 11 ||| bitAt c 10 ||| (cause.setWidth 32 <<< 6) ||| bitAt d 4 ||| bitAt e 2
        ||| 3).extractLsb' 6 3 = cause := by decide
  exact fields ..

/-- Settles O58: the reset comes first, and leaves the reset state of the build, halted where a reset-halt request asks for
it. -/
theorem platformResetRestartsTheCore : Obligations.PlatformResetRestartsTheCore := by
  intro s r hwf hr
  have key : ∃ t, step s = .next t ∧ Restarted s t ∧ t.mem = memAfter s r ∧
      (if (nextInput s).request = some .resetHalt ∧ s.hasDebug = true then
        t.dbg.debugMode = true ∧ csrRead t .dpc = t.pc ∧ (csrRead t .dcsr).extractLsb' 6 3 = 5 ∧ csrRead t .mhaltcause = 5
      else t.dbg.debugMode = false) := by
    obtain ⟨t, restarted, hmem, hmode, hreset⟩ := platformReset_cases (sample s (nextInput s)) r
      ((nextInput s).request == some .resetHalt)
    have restarted : Restarted s t := restarted_sample.mp restarted
    have hmem : t.mem = memAfter s r := hmem.trans (memAfter_sample ..)
    rw [step_reset hwf hr, hreset]
    by_cases hhalt : (nextInput s).request = some .resetHalt ∧ s.hasDebug = true
    · rw [if_pos (by simp [hhalt])]
      refine ⟨_, rfl, restarted.halted 5 5, hmem, ?_⟩
      rw [if_pos hhalt]
      exact ⟨rfl, rfl, dcsrValue_cause _, rfl⟩
    · rw [if_neg (by simpa using hhalt)]
      refine ⟨_, rfl, restarted, hmem, ?_⟩
      rwa [if_neg hhalt]
  obtain ⟨t, hstep, ⟨hpc, hmstatus, hmtvec, hmtvt, hmcause, hinhibit, hmcycle, hminstret, htcontrol, hmexstatus, htriggers,
    hclic, hwinner, hsleeping, hstack, hcfg, hcop, hdevices⟩, hmem, hmode⟩ := key
  refine ⟨t, hstep, hpc, hmstatus, hmtvec, hmtvt, hmcause, hinhibit, hmcycle, hminstret, htcontrol, hmexstatus, htriggers,
    hclic, hwinner, hsleeping, hstack, hcfg, hcop, hdevices, ?_, hmode⟩
  cases r with
  | core => exact sameMem_of_mem hmem
  | system cells => exact hmem

end Sys2Proof.Machine
end

section
/-!
How the hart comes to debug mode: requests, triggers and the single step (60_exceptions.md R466, R469, R471, R472).
-/

namespace Sys2Proof.Machine

/-! ## A debug entry (60_exceptions.md R466) -/

/-- PRV, bits [1:0] of dcsr, reads 3 (10_state.md R63). -/
theorem dcsrValue_prv (s : State) : (dcsrValue s).extractLsb' 0 2 = 3 := by
  have fields : ∀ a b c d e : Bool, ∀ cause : BitVec 3,
      (0x40000000#32 ||| bitAt a 15 ||| bitAt b 11 ||| bitAt c 10 ||| (cause.setWidth 32 <<< 6) ||| bitAt d 4 ||| bitAt e 2
        ||| 3).extractLsb' 0 2 = 3 := by decide
  exact fields ..

theorem haltedFrom_enterDebug (s : State) (cause : BitVec 3) {code : BitVec 4} {haltcause : Word}
    (h : haltcause = code.setWidth 32) : HaltedFrom s (enterDebug s cause code) cause haltcause := by
  subst h
  refine ⟨rfl, rfl, dcsrValue_cause _, dcsrValue_prv _, rfl, rfl, rfl, ?_, sameRegsBut_of_regs rfl _, sameMem_of_mem rfl,
    rfl, rfl, by simp [SameSystem, enterDebug]⟩
  simp [padLockup, enterDebug]

/-- A step that enters debug mode once the inputs are sampled halts the hart. -/
theorem halts_of_step {s : State} {cause : BitVec 3} {code : BitVec 4} {haltcause : Word}
    (hstep : step s = .next (enterDebug (sample s (nextInput s)) cause code)) (h : haltcause = code.setWidth 32) :
    Halts s cause haltcause :=
  ⟨_, hstep, haltedFrom_enterDebug _ cause h, rfl, sameRegsBut_of_regs rfl _, sameMem_of_mem rfl, rfl, sample_minstret s _⟩

/-! ## Requests (60_exceptions.md R466, R471) -/

/-- A debug request is decided before lockup, sleep and interrupts. -/
theorem step_of_debugRequest {s : State} {b : Boundary} (hundisturbed : Undisturbed s) (hmode : s.dbg.debugMode = false)
    (h : debugRequest (sample s (nextInput s)) (nextInput s).request = some b) :
    step s = stepFrom (sample s (nextInput s)) b := by
  simp [step, boundary_undisturbed hundisturbed, hartBoundary, hmode, h]

/-! ## Triggers (60_exceptions.md R469) -/

theorem triggerBoundary_unarmed {s : State} (h : s.hasDebug = false ∨ s.dbg.triggers.any (armed s) = false) :
    triggerBoundary s = .run := by
  refine if_neg fun hboth => ?_
  rcases h with h | h <;> simp [h] at hboth

/-- Whatever the free value says, the triggers let the hart run, raise the breakpoint exception where MTE allows it, or halt
the hart. -/
theorem triggerBoundary_cases (s : State) :
    triggerBoundary s = .run ∨ (s.dbg.mte = true ∧ triggerBoundary s = .breakpoint) ∨ triggerBoundary s = .halt 2 2 := by
  unfold triggerBoundary
  split
  · split
    · exact .inl rfl
    · cases s.dbg.mte
      · exact .inl rfl
      · exact .inr (.inl ⟨rfl, rfl⟩)
    · exact .inr (.inr rfl)
  · exact .inl rfl

/-- Sampling the inputs of an awake hart leaves nothing to wake. -/
theorem wake_sample {s : State} (h : s.sleeping = false) (i : StepInput) : wake (sample s i) = sample s i :=
  wake_of_awake h

/-- The triggers decide the step of an awake hart that runs and takes no interrupt. -/
theorem step_of_noInterrupt {s : State} (hrunning : Running s) (hawake : s.sleeping = false) (hnone : NoInterrupt s) :
    step s = stepFrom (sample s (nextInput s)) (triggerBoundary (sample s (nextInput s))) := by
  obtain ⟨hundisturbed, hmode, hrequest, hlockup⟩ := hrunning
  simp [step, boundary_undisturbed hundisturbed, hartBoundary, debugRequest, hmode, hrequest, hlockup, hawake,
    interruptBoundary_none hnone]

/-! ## The single step (60_exceptions.md R466, R472) -/

theorem stepDone_stepping {s : State} (hdebug : s.hasDebug = true) (hstep : s.dbg.step = true)
    (hmode : s.dbg.debugMode = false) : stepDone s = enterDebug s 4 4 := by
  simp [stepDone, hdebug, hstep, hmode]

theorem stepDone_halted {s : State} (h : s.dbg.debugMode = true) : stepDone s = s := by
  simp [stepDone, h]

theorem hasDebug_of_cfg {s t : State} (h : t.cfg = s.cfg) : t.hasDebug = s.hasDebug := by
  rw [State.hasDebug, State.hasDebug, h]

/-- An exception, taken or locking up, changes neither debug mode nor dcsr.STEP. -/
theorem raise_dbg (s : State) (code : Nat) :
    (raise s code).dbg.debugMode = s.dbg.debugMode ∧ (raise s code).dbg.step = s.dbg.step := by
  unfold raise
  split
  · exact ⟨rfl, rfl⟩
  · rw [enterException_dbg]
    split <;> exact ⟨rfl, rfl⟩

/-- Settles O59: a request is decided first, the triggers decide where no interrupt is taken, and the single step follows
the instruction, its fetch exception, or the debug entry of a breakpoint instruction. -/
theorem debugEntry : Obligations.DebugEntry := by
  refine ⟨fun s hundisturbed hmode hdebug => ?requests, fun s hrunning hawake hnone => ?triggers,
    fun s hquiet hdebug hsingle => ?single⟩
  case requests =>
    have request := fun b => step_of_debugRequest (b := b) hundisturbed hmode
    refine ⟨fun h => ?_, fun h => ?_, fun h => ⟨fun hidle => ?_, fun hlockup hawake => ?_⟩⟩
    · exact halts_of_step (request (.halt 3 3) (by simp [debugRequest, hdebug, h])) rfl
    · exact halts_of_step (request (.halt Config.asyncCause 8) (by simp [debugRequest, hdebug, h])) rfl
    · exact halts_of_step (request (.halt Config.asyncCause 8) (by simp [debugRequest, hdebug, h, hidle])) rfl
    · exact request (.refused .asyncDebugRequest) (by simp [debugRequest, hdebug, h, hlockup, hawake])
  case triggers =>
    have decided := step_of_noInterrupt hrunning hawake hnone
    have runs : triggerBoundary (sample s (nextInput s)) = .run →
        step s = afterInstr (runInstr (sample s (nextInput s))) := fun h => by
      rw [decided, h, stepFrom, wake_sample hawake]
    refine ⟨fun h => runs (triggerBoundary_unarmed h), fun _ => ?_⟩
    rcases triggerBoundary_cases (sample s (nextInput s)) with h | ⟨hmte, h⟩ | h
    · exact .inl (runs h)
    · refine .inr (.inl ⟨hmte, ?_⟩)
      rw [decided, h, stepFrom, wake_sample hawake]
    · refine .inr (.inr (halts_of_step (code := 2) ?_ rfl))
      rw [decided, h, stepFrom]
  case single =>
    intro u
    have hstep : step s = afterInstr (runInstr u) := by rw [step_quiet hquiet, wake_sample hquiet.2]
    obtain ⟨⟨⟨_, hmode, _⟩, _⟩, _⟩ := hquiet
    refine ⟨fun t i hfetch hi hexec htmode htstep hcfg => ?_, fun herror => ?_, fun hebreakm hfetch i hi hdecode => ?_⟩
    · refine ⟨_, ?_, haltedFrom_enterDebug t 4 (code := 4) rfl⟩
      rw [hstep, runInstr_of_decode_ok hfetch hi, hexec, afterInstr,
        stepDone_stepping ((hasDebug_of_cfg hcfg).trans hdebug) htstep htmode]
    · obtain ⟨hraisemode, hraisestep⟩ := raise_dbg u 1
      refine ⟨_, ?_, haltedFrom_enterDebug (raise u 1) 4 (code := 4) rfl⟩
      rw [hstep, runInstr_of_fetchError herror, afterInstr, stepDone_stepping ((hasDebug_of_cfg (raise_cfg u 1)).trans hdebug)
        (hraisestep.trans hsingle) (hraisemode.trans hmode)]
    · refine ⟨_, ?_, haltedFrom_enterDebug u 1 (code := 1) rfl⟩
      rw [hstep, runInstr_of_decode_ok hfetch hdecode, exec_breakpointInstruction hi,
        breakpointInstruction_halts (s := u) ⟨hdebug, hebreakm⟩, afterInstr, stepDone_halted rfl]

end Sys2Proof.Machine
end

section
/-!
What the debugger does with a halted hart: registers, CSRs and memory written and read, instructions supplied, and the resume
(60_exceptions.md R465 to R470).
-/

namespace Sys2Proof.Machine

/-! ## The step of a halted hart -/

/-- A halted hart without a command only samples the inputs. -/
theorem step_withoutCommand {s : State} (h : Halted s) (hnone : (nextInput s).command = none) :
    step s = .next (sample s (nextInput s)) := by
  obtain ⟨hundisturbed, hmode⟩ := h
  simp [step, boundary_undisturbed hundisturbed, hartBoundary, hmode, hnone, stepFrom]

/-! ## Registers and CSRs (R470) -/

/-- A write of a CSR the build has goes through the field rules. -/
theorem debugWriteCsr_eq {s : State} {c : CsrName}
    (h : s.cfg.hasCounters = true ∨ c ∉ [CsrName.mcountinhibit, .mcycle, .minstret]) (v : Word) :
    debugWriteCsr s c v = csrWrite s c v := by
  unfold debugWriteCsr
  split
  case h_4 => rfl
  all_goals
    rcases h with h | h
    · rw [if_pos h]
    · exact absurd (by decide) h

/-! ## Memory and devices (R470, 20_memory.md R102, R111, R122) -/

/-- A misaligned write, or one answered by ERROR, does nothing. -/
theorem debugWriteMem_ignored {s : State} {w : Width} {a : Word} (v : Word)
    (h : misaligned w a = true ∨ inTcip a = false ∧ response s .store (mainAddr a) = .error) :
    debugWriteMem s w a v = .next s := by
  rcases h with h | ⟨htcip, herror⟩
  · simp [debugWriteMem, h]
  · simp [debugWriteMem, htcip, herror]

theorem debugWriteMem_memory {s : State} {w : Width} {a : Word} (v : Word) (haligned : misaligned w a = false)
    (htcip : inTcip a = false) (h : response s .store (mainAddr a) = .memory) :
    debugWriteMem s w a v = .next (storeMain s w (mainAddr a) v) := by
  simp [debugWriteMem, haligned, htcip, h]

theorem debugWriteMem_device {s : State} {w : Width} {a : Word} (v : Word) (haligned : misaligned w a = false)
    (htcip : inTcip a = false) (h : response s .store (mainAddr a) = .device) :
    debugWriteMem s w a v = .next (storeDevice s w (mainAddr a) v) := by
  simp [debugWriteMem, haligned, htcip, h]

theorem debugWriteMem_tcip {s t : State} {w : Width} {a v : Word} (haligned : misaligned w a = false)
    (htcip : inTcip a = true) (h : tcipWrite s w a.toNat v = .ok t) : debugWriteMem s w a v = .next t := by
  simp [debugWriteMem, haligned, htcip, h]

theorem holdsBytes_storeMain {s : State} (h : Memory.wf s.mem) (w : Width) (a : Nat) (v : Word) :
    HoldsBytes (storeMain s w a v) a w.bytes v := fun _ hk => by
  rw [storeMain_mem, readByte_write_same h.1 w a v hk]

theorem sameMemBut_storeMain (s : State) (w : Width) (a : Nat) (v : Word) :
    SameMemBut (InBytes a w.bytes) s (storeMain s w a v) := fun b hb => by
  rw [storeMain_mem, readByte_write_other]
  simp only [InBytes] at hb
  omega

/-- The low bytes of a value as a number. -/
theorem lowBytes_eq_ofNat (w : Width) (v : Word) : lowBytes w v = BitVec.ofNat 32 (v.toNat % 2 ^ (8 * w.bytes)) := by
  refine BitVec.eq_of_toNat_eq ?_
  cases w <;>
    simp only [lowBytes, Width.bytes, BitVec.toNat_setWidth, BitVec.extractLsb'_toNat, BitVec.toNat_ofNat,
      Nat.shiftRight_zero]
  all_goals omega

theorem storeDevice_record (s : State) (w : Width) (a v : Word) :
    (storeDevice s w (mainAddr a) v).devices =
      { deviceQuery .store w a with data := BitVec.ofNat 32 (v.toNat % 2 ^ (8 * w.bytes)) } :: s.devices := by
  rw [storeDevice_devices, lowBytes_eq_ofNat]
  rfl

/-- A device is asked once, and a read of anything else leaves no trace. -/
theorem debugReadMem_eq (s : State) (w : Width) (a : Word) :
    debugReadMem s w a =
      if misaligned w a = false ∧ inTcip a = false ∧ response s .load (mainAddr a) = .device then
        { s with devices := deviceQuery .load w a :: s.devices }
      else s := by
  have zero : lowBytes w 0 = 0 := by cases w <;> rfl
  simp only [debugReadMem, toDevice, zero, deviceQuery, Bool.and_eq_true, Bool.not_eq_true', beq_iff_eq, and_assoc]

/-! ## Supplied instructions (R465, R468) -/

/-- The pc holds bits [20:0] of an address as they are (10_state.md R28). -/
theorem toNat_normPc_mod (v : Word) : (normPc v).toNat % 2 ^ 21 = v.toNat % 2 ^ 21 := by
  rcases normPc_cases v with e | e
  · rw [e]
  · have low : (v &&& 0x1FFFFF).toNat = v.toNat % 2 ^ 21 := by
      rw [BitVec.toNat_and]
      exact Nat.and_two_pow_sub_one_eq_mod _ 21
    rw [e, low, Nat.mod_mod]

/-- The address behind a retired instruction is never the one it came from, whatever bits the pc holds. -/
theorem normPc_add_four_ne (v : Word) : normPc (v + 4) ≠ v := fun h => by
  have hmod := toNat_normPc_mod (v + 4)
  have four : (4 : Word).toNat = 4 := rfl
  rw [h, BitVec.toNat_add, four] at hmod
  omega

/-- An instruction that moves the pc on and leaves the ghost stack retires, and the pc and the low-power state stay. -/
theorem debugExec_retired {s t : State} {i : Instr} (hbreak : isBreak i = false) (hpc : usesPc i = false)
    (hexec : exec i s = .next t) (hstack : t.trapStack = s.trapStack) (hmoved : t.pc ≠ s.pc) :
    debugExec s i = .ran { t with pc := s.pc, sleeping := s.sleeping } := by
  simp [debugExec, hbreak, hpc, hexec, trapped, hstack, hmoved]

theorem debugExec_break {s : State} {i : Instr} (h : isBreak i = true) : debugExec s i = .ended s := by
  simp [debugExec, h]

/-- After an instruction that retires, what was supplied goes on behind it. -/
theorem debugRun_of_ran {n : Nat} {s t : State} {l : List Byte} {i : Instr} (hl : l ≠ []) (hi : decode l = .ok i)
    (h : debugExec s i = .ran t) : debugRun (n + 1) s l = debugRun n t (l.drop i.length) := by
  simp [debugRun, hl, hi, h]

theorem debugRun_of_ended {n : Nat} {s t : State} {l : List Byte} {i : Instr} (hl : l ≠ []) (hi : decode l = .ok i)
    (h : debugExec s i = .ended t) : debugRun (n + 1) s l = .next t := by
  simp [debugRun, hl, hi, h]

theorem exec_fenceI (s : State) : exec .fenceI s = .next ({ s with stale := [] }.retire 4) := rfl

/-- The program buffer FENCE.I, EBREAK is a FENCE.I that leaves the pc and the low-power state. -/
theorem debugRun_fenceI (s : State) :
    debugRun 4 s (leBytes 4 (0x0000100F : Word).toNat ++ leBytes 4 (0x00100073 : Word).toNat) =
      .next { { s with stale := [] }.retire 4 with pc := s.pc, sleeping := s.sleeping } := by
  have moved : ({ s with stale := [] }.retire 4).pc ≠ s.pc := by
    rw [retire_pc]
    exact normPc_add_four_ne s.pc
  have fence := debugExec_retired (i := .fenceI) (by decide) rfl (exec_fenceI s) (by simp) moved
  rw [debugRun_of_ran (by decide) (by decide) fence, debugRun_of_ended (i := .ebreak) (by decide) (by decide)
    (debugExec_break (by decide))]

/-! ## The statement -/

/-- Settles O60: each command by the lemma about it, from the state with the inputs sampled. -/
theorem debuggerCommands : Obligations.DebuggerCommands := by
  intro s hhalted u
  have command : ∀ {c : DebugCommand}, (nextInput s).command = some c → step s = debugCommand u c := step_command hhalted
  refine ⟨fun h => ?none, fun r v h => ?gpr, fun c v h hcounters => ?csr, fun w a v h hignored => ?ignored,
    fun w a v h haligned => ⟨fun htcip hresponse hwf => ?memory, fun htcip hresponse => ?device, fun t htcip ht => ?tcip⟩,
    fun w a h => ?read, fun h => ?progbuf, fun w i t h hi hpc hbreak hexec hstack hmoved => ?itr, fun h hlow heven => ?resume⟩
  case none => exact ⟨step_withoutCommand hhalted h, rfl, sameRegsBut_of_regs rfl _, sameMem_of_mem rfl⟩
  case gpr =>
    refine ⟨u.setX r v, command h, x_setX_written u r v, fun q hq => ?_, setX_pc .., sameMem_of_mem (setX_mem ..), setX_stale ..,
      setX_ctr .., by simp [SameSystem]⟩
    rw [x_setX_other u v (by simpa using hq)]
    rfl
  case csr =>
    obtain ⟨hcfg, hregs, hpc, hclic, hpins, hmem, hstale, hsleeping, hstack, hcop, hdevices, hinputs, htick⟩ :=
      csrWrite_frame u c v
    refine ⟨csrWrite u c v, ?_, rfl, rfl, rfl, sameRegsBut_of_regs hregs _, sameMem_of_mem hmem, hstale, hpc, hcfg, rfl, rfl,
      rfl, rfl, rfl, hclic, hpins, hsleeping, hstack, hcop, hdevices, hinputs, htick⟩
    rw [command h, debugCommand, debugWriteCsr_eq (s := u) hcounters]
  case ignored => rw [command h, debugCommand, debugWriteMem_ignored v hignored]
  case memory =>
    refine ⟨storeMain u w (mainAddr a) v, ?_, holdsBytes_storeMain (s := u) hwf w _ v, sameMemBut_storeMain u w (mainAddr a) v,
      mem_insertAddrs s.stale (mainAddr a) w.bytes, sameRegsBut_of_regs rfl _, rfl, rfl, by simp [SameSystem]⟩
    rw [command h, debugCommand, debugWriteMem_memory v haligned htcip hresponse]
  case device =>
    refine ⟨storeDevice u w (mainAddr a) v, ?_, storeDevice_record u w a v,
      mem_insertAddrs s.stale (mainAddr a) w.bytes, sameRegsBut_of_regs rfl _, sameMem_of_mem rfl, rfl, rfl,
      by simp [SameSystem]⟩
    rw [command h, debugCommand, debugWriteMem_device v haligned htcip hresponse]
  case tcip => rw [command h, debugCommand, debugWriteMem_tcip haligned htcip ht]
  case read => rw [command h, debugCommand, debugReadMem_eq]
  case progbuf =>
    refine ⟨_, (command h).trans (debugRun_fenceI u), by simp, sameRegsBut_of_regs (by simp [u]) _,
      sameMem_of_mem (by simp [u]), rfl, by simp [SameSystem, State.retire], ?_⟩
    exact countedOne_retireTo_of (s := u) (u := { u with stale := [] }) rfl rfl rfl _
  case itr =>
    have run := debugRun_of_ran (n := 0) (by simp [leBytes]) hi (debugExec_retired hbreak hpc hexec hstack hmoved)
    rw [command h, debugCommand, run]
    rfl
  case resume =>
    refine ⟨leaveDebug u, command h, leaveDebug_pc hlow heven, leaveDebug_dbg u, leaveDebug_trapStack u,
      sameRegsBut_of_regs rfl _, sameMem_of_mem rfl, rfl, rfl, fun hstays => leaveDebug_csr_stays hstays,
      fun hlockup hends => leaveDebug_csr_ends hlockup hends, by simp [SameSystem]⟩

end Sys2Proof.Machine
end

section
/-!
The byte registers of an interrupt source, and the sampling of its line (60_exceptions.md R446 to R450).
-/

namespace Sys2Proof.Machine

/-! ## Accesses to the TCIP window (20_memory.md R109) -/

/-- A load instruction that a register of the window answers writes what it read. -/
theorem writes_of_loadTo_tcip {i : Instr} {s : State} {len a v : Word} {w : Width} {rd : Reg} {ext : Word → Word}
    (hi : exec i s = loadTo s len w rd a ext) (haligned : misaligned w a = false) (htcip : inTcip a = true)
    (hv : tcipRead s w a.toNat = some v) : Writes i s rd (ext v) len := by
  refine writes_of_writeTo (hi.trans ?_)
  simp [loadTo, loadMem, haligned, htcip, hv, Res.elim, writeTo]

/-- A store instruction answers what the window answers. -/
theorem exec_of_storeFrom_tcip {i : Instr} {s : State} {len a v : Word} {w : Width}
    (hi : exec i s = storeFrom s len w a v) (haligned : misaligned w a = false) (htcip : inTcip a = true) :
    exec i s = (tcipWrite s w a.toNat v).elim s fun t => .next (t.retire len) := by
  simp [hi, storeFrom, storeMem, haligned, htcip]

/-- A store that the window takes changes the CLINT and the CLIC, and retires. -/
theorem storesToTcip_of_storeFrom {i : Instr} {s t : State} {a v : Word} {w : Width}
    (hi : exec i s = storeFrom s 4 w a v) (haligned : misaligned w a = false) (htcip : inTcip a = true)
    (ht : tcipWrite s w a.toNat v = .ok t) : StoresToTcip i s (t.retire 4) := by
  have hexec : exec i s = .next (t.retire 4) := by rw [exec_of_storeFrom_tcip hi haligned htcip, ht, Res.elim]
  obtain ⟨c, rfl⟩ := tcipWrite_ok ht
  exact ⟨hexec, by simp, sameRegsBut_of_regs (by simp) _, sameMem_of_mem (by simp), by simp,
    by simp [SameSystem, State.retire], countedOne_retireTo_of (u := { s with clic := c }) rfl rfl rfl _⟩

/-! ## The byte address of a source's register (R109 c, R452) -/

theorem lt_of_hasSource {c : Config} {id : Nat} (h : hasSource c id = true) : id < 128 := by
  simp only [hasSource, Bool.or_eq_true, Bool.and_eq_true, beq_iff_eq, decide_eq_true_eq] at h
  omega

/-- The address of register `k` of source `id`. -/
def clicByteAddr (id k : Nat) : Nat := 0xE0801000 + k + 4 * id

theorem clicAddr_clicByteAddr {c : Config} {id k : Nat} (h : hasSource c id = true) (hk : k < 4) :
    clicAddr c (clicByteAddr id k) = some (id, k) := by
  have hid := lt_of_hasSource h
  have hrange : 0xE0801000 ≤ clicByteAddr id k ∧ clicByteAddr id k < 0xE0801200 := by
    simp only [clicByteAddr]
    omega
  have hword : (clicByteAddr id k - 0xE0801000) / 4 = id := by
    simp only [clicByteAddr]
    omega
  have hbyte : (clicByteAddr id k - 0xE0801000) % 4 = k := by
    simp only [clicByteAddr]
    omega
  rw [clicAddr, if_pos hrange, hword, hbyte, if_pos h]

theorem sb_eq_storeFrom (s : State) (rs2 rs1 : Reg) : exec (.sb rs2 rs1 0) s = storeFrom s 4 .byte (s.x rs1) (s.x rs2) := by
  rw [← add_sext12_zero (s.x rs1)]
  rfl

theorem lbu_eq_loadTo (s : State) (rd rs1 : Reg) : exec (.lbu rd rs1 0) s = loadTo s 4 .byte rd (s.x rs1) zextByte := by
  rw [← add_sext12_zero (s.x rs1)]
  rfl

/-- A byte is its own zero extension. -/
theorem zextByte_setWidth (b : Byte) : zextByte (b.setWidth 32) = b.setWidth 32 := by
  rw [zextByte, BitVec.extractLsb'_setWidth_of_le (by decide), BitVec.extractLsb'_eq_self]

theorem sourceOf_retire (s : State) (len : Word) (j : Nat) : sourceOf (s.retire len) j = sourceOf s j := by
  rw [sourceOf, sourceOf, retire_clic]

/-- The source replaced is read back, the others stay. -/
theorem sourceOf_setSource {id : Nat} (hid : id < 128) (s : State) (x : ClicSource) (j : Nat) :
    sourceOf (setSource s id x) j = if j = id then x else sourceOf s j := by
  rw [sourceOf, setSource, Vector.getElem?_setIfInBounds]
  by_cases h : j = id
  · simp [h, hid]
  · simp [h, Ne.symm h, sourceOf]

theorem sourceOf_stored_same {id : Nat} (hid : id < 128) (s : State) (x : ClicSource) (len : Word) :
    sourceOf ((setSource s id x).retire len) id = x := by
  rw [sourceOf_retire, sourceOf_setSource hid, if_pos rfl]

theorem sourceOf_stored_other {id j : Nat} (hid : id < 128) (s : State) (x : ClicSource) (len : Word) (hj : j ≠ id) :
    sourceOf ((setSource s id x).retire len) j = sourceOf s j := by
  rw [sourceOf_retire, sourceOf_setSource hid, if_neg hj]

/-- A store to a source moves no line. -/
theorem lineOf_stored (s : State) (id : Nat) (x : ClicSource) (len : Word) (j : Nat) :
    lineOf ((setSource s id x).retire len) j = lineOf s j := by
  simp [lineOf, setSource]

/-! ## What a store makes of a source (R446 to R449) -/

/-- A store that leaves the attributes of a legal source keeps them. -/
theorem writeSource_keepAttr {s : State} {id : Nat} (h : ClicSource.legal id (sourceOf s id)) (ip ie : Option Byte) :
    writeSource s id ip ie none =
      .ok { sourceOf s id with
        latch := if (sourceOf s id).edge then (ip.map fun b => b.getLsbD 0).getD (sourceOf s id).latch else false
        ie := (ie.map fun b => b.getLsbD 0).getD (sourceOf s id).ie } := by
  obtain ⟨hlevel, hclint⟩ := h
  unfold writeSource
  cases hedge : (sourceOf s id).edge with
  | false => simp [(hlevel hedge).2, hedge]
  | true =>
    have hids : ¬ (id = 3 ∨ id = 7) := fun hid => by simp [hclint hid] at hedge
    simp [hedge, hids]

theorem writeSource_ip {s : State} {id : Nat} (h : ClicSource.legal id (sourceOf s id)) (b : Byte) :
    writeSource s id (some b) none none =
      .ok { sourceOf s id with latch := if (sourceOf s id).edge then b.getLsbD 0 else false } :=
  writeSource_keepAttr h (some b) none

/-- The latch stays, for a level source has none. -/
theorem writeSource_ie {s : State} {id : Nat} (h : ClicSource.legal id (sourceOf s id)) (b : Byte) :
    writeSource s id none (some b) none = .ok { sourceOf s id with ie := b.getLsbD 0 } := by
  have hlatch : (if (sourceOf s id).edge then (sourceOf s id).latch else false) = (sourceOf s id).latch := by
    cases hedge : (sourceOf s id).edge with
    | false => exact (h.1 hedge).1.symm
    | true => rfl
  rw [writeSource_keepAttr h none (some b), Option.map_none, Option.getD_none, hlatch]
  rfl

section
variable {s : State} {id : Nat} {b : Byte}

theorem writeSource_reserved (h1 : b.getLsbD 1 = false) (h2 : b.getLsbD 2 = true) :
    writeSource s id none none (some b) = .error .reservedTrigger := by
  simp [writeSource, -BitVec.getLsbD_eq_getElem, h1, h2]

theorem writeSource_clintEdge (h1 : b.getLsbD 1 = true) (hid : id = 3 ∨ id = 7) :
    writeSource s id none none (some b) = .error .clintEdgeMode := by
  simp [writeSource, -BitVec.getLsbD_eq_getElem, h1, hid]

theorem writeSource_level (h1 : b.getLsbD 1 = false) (h2 : b.getLsbD 2 = false) :
    writeSource s id none none (some b) =
      .ok { latch := false, ie := (sourceOf s id).ie, edge := false, falling := false, shv := b.getLsbD 0 } := by
  simp [writeSource, -BitVec.getLsbD_eq_getElem, h1, h2]

/-- The latch is kept where the edge mode stays, and clear where it changes on an idle source (R447). -/
theorem writeSource_edge (h1 : b.getLsbD 1 = true) (hid : 16 ≤ id)
    (h : (sourceOf s id).edge = true ∧ b.getLsbD 2 = (sourceOf s id).falling ∨
      isPending s id = false ∧ lineOf s id = false) :
    writeSource s id none none (some b) =
      .ok
        { latch := (sourceOf s id).edge && (sourceOf s id).latch && (b.getLsbD 2 == (sourceOf s id).falling)
          ie := (sourceOf s id).ie, edge := true, falling := b.getLsbD 2, shv := b.getLsbD 0 } := by
  have hids : ¬ (id = 3 ∨ id = 7) := by omega
  rcases h with ⟨hedge, hfalling⟩ | ⟨hpending, hline⟩
  · simp [writeSource, -BitVec.getLsbD_eq_getElem, h1, hids, hedge, hfalling]
  · simp [writeSource, -BitVec.getLsbD_eq_getElem, h1, hids, hpending, hline]
    cases (sourceOf s id).edge <;> simp [-BitVec.getLsbD_eq_getElem, Bool.and_comm, Bool.beq_eq_decide_eq]

end

/-! ## The byte registers through LBU and SB -/

section
variable {s : State} {id k : Nat} {rd rs1 rs2 : Reg} (hsource : hasSource s.cfg id = true) (hk : k < 4)
  (haddr : s.x rs1 = BitVec.ofNat 32 (clicByteAddr id k))
include hsource hk haddr

/-- A byte access at such an address is aligned, inside the window, and names the register. -/
theorem clicByteAddr_access :
    misaligned .byte (s.x rs1) = false ∧ inTcip (s.x rs1) = true ∧ (s.x rs1).toNat = clicByteAddr id k := by
  have hid := lt_of_hasSource hsource
  have hnat : (s.x rs1).toNat = clicByteAddr id k := by
    rw [haddr, BitVec.toNat_ofNat, Nat.mod_eq_of_lt]
    simp only [clicByteAddr]
    omega
  refine ⟨(aligned_iff .byte _).mpr (Nat.mod_one _), (inTcip_iff _).mpr ?_, hnat⟩
  rw [hnat, clicByteAddr]
  omega

theorem writes_lbu_clicByte : Writes (.lbu rd rs1 0) s rd ((clicByte s id k).setWidth 32) 4 := by
  obtain ⟨haligned, htcip, hnat⟩ := clicByteAddr_access hsource hk haddr
  have hread : tcipRead s .byte (s.x rs1).toNat = some ((clicByte s id k).setWidth 32) := by
    simp [tcipRead, hnat, clicAddr_clicByteAddr hsource hk]
  exact zextByte_setWidth (clicByte s id k) ▸ writes_of_loadTo_tcip (lbu_eq_loadTo s rd rs1) haligned htcip hread

theorem exec_sb_clicByte :
    exec (.sb rs2 rs1 0) s =
      (tcipWrite s .byte (clicByteAddr id k) (s.x rs2)).elim s fun t => .next (t.retire 4) := by
  obtain ⟨haligned, htcip, hnat⟩ := clicByteAddr_access hsource hk haddr
  rw [← hnat]
  exact exec_of_storeFrom_tcip (sb_eq_storeFrom s rs2 rs1) haligned htcip

theorem storesToTcip_sb_clicByte {t : State} (ht : tcipWrite s .byte (clicByteAddr id k) (s.x rs2) = .ok t) :
    StoresToTcip (.sb rs2 rs1 0) s (t.retire 4) := by
  obtain ⟨haligned, htcip, hnat⟩ := clicByteAddr_access hsource hk haddr
  exact storesToTcip_of_storeFrom (sb_eq_storeFrom s rs2 rs1) haligned htcip (hnat ▸ ht)

theorem storesToTcip_sb_of_writeSource {ip ie attr : Option Byte} {x : ClicSource}
    (hstore : tcipWrite s .byte (clicByteAddr id k) (s.x rs2) = storeSource s id ip ie attr)
    (hx : writeSource s id ip ie attr = .ok x) : StoresToTcip (.sb rs2 rs1 0) s ((setSource s id x).retire 4) :=
  storesToTcip_sb_clicByte hsource hk haddr (by rw [hstore, storeSource, hx])

/-- A store that replaces the source by `x` leaves the others. -/
theorem exists_storesToTcip_sb {ip ie attr : Option Byte} {x : ClicSource}
    (hstore : tcipWrite s .byte (clicByteAddr id k) (s.x rs2) = storeSource s id ip ie attr)
    (hx : writeSource s id ip ie attr = .ok x) :
    ∃ t, StoresToTcip (.sb rs2 rs1 0) s t ∧ sourceOf t id = x ∧ ∀ j, j ≠ id → sourceOf t j = sourceOf s j :=
  ⟨_, storesToTcip_sb_of_writeSource hsource hk haddr hstore hx, sourceOf_stored_same (lt_of_hasSource hsource) s x 4,
    fun _ hj => sourceOf_stored_other (lt_of_hasSource hsource) s x 4 hj⟩

theorem exec_sb_refused {ip ie attr : Option Byte} {r : Refusal}
    (hstore : tcipWrite s .byte (clicByteAddr id k) (s.x rs2) = storeSource s id ip ie attr)
    (hr : writeSource s id ip ie attr = .error r) : exec (.sb rs2 rs1 0) s = .refused r := by
  rw [exec_sb_clicByte hsource hk haddr, hstore, storeSource, hr, Res.elim]

end

/-! ## The four registers (R446 to R450) -/

theorem tcipWrite_clicByte_ip {s : State} {id : Nat} (h : hasSource s.cfg id = true) (v : Word) :
    tcipWrite s .byte (clicByteAddr id 0) v = storeSource s id (some (v.extractLsb' 0 8)) none none := by
  simp [tcipWrite, clicAddr_clicByteAddr h]

theorem tcipWrite_clicByte_ie {s : State} {id : Nat} (h : hasSource s.cfg id = true) (v : Word) :
    tcipWrite s .byte (clicByteAddr id 1) v = storeSource s id none (some (v.extractLsb' 0 8)) none := by
  simp [tcipWrite, clicAddr_clicByteAddr h]

theorem tcipWrite_clicByte_attr {s : State} {id : Nat} (h : hasSource s.cfg id = true) (v : Word) :
    tcipWrite s .byte (clicByteAddr id 2) v = storeSource s id none none (some (v.extractLsb' 0 8)) := by
  simp [tcipWrite, clicAddr_clicByteAddr h]

theorem tcipWrite_clicByte_ctl {s : State} {id : Nat} (h : hasSource s.cfg id = true) (v : Word) :
    tcipWrite s .byte (clicByteAddr id 3) v = .ok s := by
  simp [tcipWrite, clicAddr_clicByteAddr h]

theorem setWidth_bitByte (b : Bool) : (bitByte b).setWidth 32 = bitOf (b = true) := by
  cases b <;> rfl

/-- clicintattr as a number: the mode bits above TRIG and SHV (R449). -/
theorem setWidth_clicintattr (falling edge shv : Bool) :
    (0xC0 ||| (bitByte falling <<< 2) ||| (bitByte edge <<< 1) ||| bitByte shv : Byte).setWidth 32 =
      0xC0 + 4 * bitOf (falling = true) + 2 * bitOf (edge = true) + bitOf (shv = true) := by
  cases falling <;> cases edge <;> cases shv <;> rfl

theorem setWidth_clicintctl {id : Nat} (h : id < 128) : (BitVec.ofNat 8 id).setWidth 32 = BitVec.ofNat 32 id := by
  refine BitVec.eq_of_toNat_eq ?_
  simp only [BitVec.toNat_setWidth, BitVec.toNat_ofNat]
  omega

/-- The bits of the low byte of a word are those of the word. -/
theorem getLsbD_lowByte (v : Word) {k : Nat} (h : k < 8) : (v.extractLsb' 0 8).getLsbD k = v.getLsbD k := by
  simp [h]

/-- The pending bit of a level source is its line, that of an edge source its latch (R446). -/
theorem isPending_of_hasSource {s : State} {id : Nat} (h : hasSource s.cfg id = true) :
    isPending s id = if (sourceOf s id).edge then (sourceOf s id).latch else lineOf s id := by
  rw [isPending, h, Bool.true_and]

/-! ## Sampling the lines (R446) -/

/-- A line that does not move makes no edge. -/
theorem sampleSource_same (lines : BitVec 112) (id : Nat) (x : ClicSource) : sampleSource lines lines id x = x := by
  refine if_neg ?_
  cases x.falling <;> cases lines.getLsbD (id - 16) <;> simp [hasEdge]

theorem sourceOf_sample {id : Nat} (hid : id < 128) (s : State) (i : StepInput) :
    sourceOf (sample s i) id = sampleSource s.pins.lines i.lines id (sourceOf s id) := by
  by_cases h : s.pins.lines = i.lines
  · rw [h, sampleSource_same]
    simp [sourceOf, sample, sampleSources, h]
  · simp [sourceOf, sample, sampleSources, h, hid]

/-- Sampling keeps the mode of a source. -/
theorem sampleSource_edge (old new : BitVec 112) (id : Nat) (x : ClicSource) : (sampleSource old new id x).edge = x.edge := by
  unfold sampleSource
  split <;> rfl

/-- Sampling sets the latch of an edge source at the edge it waits for. -/
theorem sampleSource_latch {id : Nat} (hid : 16 ≤ id) (old new : BitVec 112) {x : ClicSource} (hedge : x.edge = true) :
    (sampleSource old new id x).latch =
      (x.latch || hasEdge x.falling (old.getLsbD (id - 16)) (new.getLsbD (id - 16))) := by
  rw [sampleSource]
  cases h : hasEdge x.falling (old.getLsbD (id - 16)) (new.getLsbD (id - 16)) <;> simp [hid, hedge]

theorem hasEdge_iff (falling old new : Bool) : hasEdge falling old new = true ↔ old = falling ∧ new ≠ falling := by
  cases falling <;> cases old <;> cases new <;> decide

theorem lineOf_external {id : Nat} (hid : 16 ≤ id) (s : State) : lineOf s id = s.pins.lines.getLsbD (id - 16) := by
  have h3 : id ≠ 3 := by omega
  have h7 : id ≠ 7 := by omega
  simp [lineOf, h3, h7, hid]

/-- Settles O45: each byte by the register it addresses, and the pending bit by the mode of the source. -/
theorem clicByteRegisters : Obligations.ClicByteRegisters := by
  refine ⟨fun s id rd rs1 rs2 hsource hlegal => ?registers, fun s i id hid hsource => ?sampling⟩
  case registers =>
    intro x v
    have hlt := lt_of_hasSource hsource
    have bit : ∀ k < 8, (v.extractLsb' 0 8).getLsbD k = v.getLsbD k := fun k => getLsbD_lowByte v
    refine ⟨fun haddr => ⟨?readIp, ?writeIp⟩, fun haddr => ⟨?readIe, ?writeIe⟩, fun haddr => ⟨?readAttr, ?writeAttr⟩,
      fun haddr => ⟨?readCtl, ?writeCtl⟩⟩
    case readIp => exact setWidth_bitByte _ ▸ writes_lbu_clicByte hsource (k := 0) (by decide) haddr
    case readIe => exact setWidth_bitByte _ ▸ writes_lbu_clicByte hsource (k := 1) (by decide) haddr
    case readAttr => exact setWidth_clicintattr .. ▸ writes_lbu_clicByte hsource (k := 2) (by decide) haddr
    case readCtl => exact setWidth_clicintctl hlt ▸ writes_lbu_clicByte hsource (k := 3) (by decide) haddr
    case writeIp =>
      refine ⟨_, storesToTcip_sb_of_writeSource hsource (k := 0) (by decide) haddr (tcipWrite_clicByte_ip hsource v)
        (writeSource_ip hlegal _), ?_, ?_, fun j hj => sourceOf_stored_other hlt s _ 4 hj⟩
      · rw [isPending_of_hasSource (by simpa using hsource), sourceOf_stored_same hlt, lineOf_stored,
          isPending_of_hasSource hsource, bit 0 (by decide)]
        cases x.edge <;> rfl
      · rw [sourceOf_stored_same hlt]
    case writeIe =>
      rw [← bit 0 (by decide)]
      exact exists_storesToTcip_sb hsource (k := 1) (by decide) haddr (tcipWrite_clicByte_ie hsource v)
        (writeSource_ie hlegal _)
    case writeAttr =>
      have written := tcipWrite_clicByte_attr hsource v
      have store := fun {x} => exists_storesToTcip_sb (x := x) hsource (k := 2) (by decide) haddr written
      have refuse := fun {r} => exec_sb_refused (r := r) hsource (k := 2) (by decide) haddr written
      rw [← bit 0 (by decide), ← bit 1 (by decide), ← bit 2 (by decide)]
      exact ⟨fun h1 h2 => refuse (writeSource_reserved h1 h2), fun h1 hid => refuse (writeSource_clintEdge h1 hid),
        fun h1 h2 => store (writeSource_level h1 h2), fun h1 hid hmode => store (writeSource_edge h1 hid hmode)⟩
    case writeCtl =>
      exact ⟨s.retire 4, storesToTcip_sb_clicByte hsource (k := 3) (by decide) haddr (tcipWrite_clicByte_ctl hsource v),
        retire_clic s 4⟩
  case sampling =>
    have hlt := lt_of_hasSource hsource
    rw [isPending_of_hasSource (s := sample s i) hsource, sourceOf_sample hlt, sampleSource_edge]
    refine ⟨fun hlevel => ?_, fun hedge => ?_⟩
    · rw [hlevel]
      exact lineOf_external hid (sample s i)
    · rw [if_pos hedge, sampleSource_latch hid _ _ hedge, Bool.or_eq_true, hasEdge_iff]

end Sys2Proof.Machine
end

section
/-!
What each CSR reads after a write: the fields of a value by its parts and masks, then CSR by CSR (10_state.md R38 to R66).
-/

namespace Sys2Proof.Machine

/-! ## Parts of a word -/

/-- The upper part of a word above zeros is the word under the mask of that part. -/
theorem extractLsb'_append_zero {m n : Nat} (v : BitVec (m + n)) :
    v.extractLsb' n m ++ (0 : BitVec n) = v &&& (BitVec.allOnes m ++ (0 : BitVec n)) := by
  have parts : v = v.extractLsb' n m ++ v.extractLsb' 0 n := by
    rw [BitVec.extractLsb'_append_extractLsb'_eq_extractLsb' (Nat.zero_add n).symm, BitVec.extractLsb'_eq_self]
  conv => rhs; rw [parts, BitVec.and_append, BitVec.and_allOnes]
  rw [show v.extractLsb' 0 n &&& (0 : BitVec n) = 0 from BitVec.and_zero]

/-- A table base above zeros is the word without its six low bits. -/
theorem base_append_zero (v : Word) : v.extractLsb' 6 26 ++ (0 : BitVec 6) = v &&& 0xFFFFFFC0 :=
  extractLsb'_append_zero (m := 26) (n := 6) v

/-- The six low bits of a value that ends in zeros are free for the mode. -/
theorem append_mode (base : BitVec 26) : base ++ (3 : BitVec 6) = (base ++ (0 : BitVec 6)) ||| (3 : Word) := by
  have mode : (3 : Word) = (0 : BitVec 26) ++ (3 : BitVec 6) := by decide
  rw [mode, BitVec.or_append]
  simp

/-- The low `n` bits of a word as a number. -/
theorem toNat_and_lowMask (v : Word) {n : Nat} {mask : Word} (h : mask.toNat = 2 ^ n - 1) :
    (v &&& mask).toNat = v.toNat % 2 ^ n := by
  rw [BitVec.toNat_and, h, Nat.and_two_pow_sub_one_eq_mod]

/-- The low `n` bits of a word, extended. -/
theorem setWidth_low (v : Word) {n : Nat} {mask : Word} (h : mask.toNat = 2 ^ n - 1) :
    (v.extractLsb' 0 n).setWidth 32 = v &&& mask := by
  refine BitVec.eq_of_toNat_eq ?_
  rw [toNat_and_lowMask v h, BitVec.toNat_setWidth, BitVec.extractLsb'_toNat, Nat.shiftRight_zero]
  exact Nat.mod_eq_of_lt (Nat.lt_of_le_of_lt (Nat.mod_le ..) v.isLt)

/-! ## The vector bases, mscratch and mepc (R38 to R43, R55) -/

theorem csrRead_csrWrite_bases {s : State} (h : s.cfg.vecFixed = false) (v : Word) :
    csrRead (csrWrite s .mtvec v) .mtvec = (v &&& 0xFFFFFFC0) ||| 3 ∧
      csrRead (csrWrite s .mtvt v) .mtvt = v &&& 0xFFFFFFC0 ∧ csrRead (csrWrite s .jvt v) .jvt = v &&& 0xFFFFFFC0 := by
  simp only [csrRead, csrWrite, withCsr_csr, h, Bool.false_eq_true, if_false]
  exact ⟨by rw [append_mode, base_append_zero], base_append_zero v, base_append_zero v⟩

theorem csrRead_csrWrite_mepc (s : State) {v : Word} (h : LowPc v) :
    csrRead (csrWrite s .mepc v) .mepc = v &&& 0xFFFFFFFE := by
  have hlow : LowPc (clearBit0 v) := by
    rw [LowPc, clearBit0, BitVec.toNat_and]
    exact Nat.lt_of_le_of_lt Nat.and_le_left h
  exact normPc_low hlow

/-! ## mcause (R44) -/

/-- The exception code of a written value whose bit 8 is 0. -/
theorem setWidth_code (v : Word) : ((0 : BitVec 1) ++ v.extractLsb' 0 8).setWidth 32 = v &&& 0xFF := by
  refine BitVec.eq_of_toNat_eq ?_
  rw [toNat_and_lowMask v (n := 8) rfl, BitVec.toNat_setWidth, toNat_append_eq_add, BitVec.extractLsb'_toNat,
    Nat.shiftRight_zero, show (0 : BitVec 1).toNat = 0 from rfl]
  omega

theorem csrRead_csrWrite_mcause {s : State} {v : Word} (h8 : v.getLsbD 8 = false) (h27 : v.getLsbD 27 = s.csr.mpie) :
    csrRead (csrWrite s .mcause v) .mcause = (v &&& 0xC80000FF) ||| 0x30000000 := by
  have masks : (0xC80000FF : Word) = BitVec.twoPow 32 31 ||| BitVec.twoPow 32 30 ||| BitVec.twoPow 32 27 ||| 0xFF := by decide
  have code : (mcauseAfter s v).causeCode = (0 : BitVec 1) ++ v.extractLsb' 0 8 := by
    simp only [mcauseAfter, h8, Bool.false_and, Bool.false_eq_true, if_false]
  have mpie : (mcauseAfter s v).mpie = v.getLsbD 27 := by simp only [mcauseAfter, h27, if_true]
  rw [csrRead, mcauseValue, csrWrite, withCsr_csr, code, mpie, setWidth_code, mcauseAfter]
  simp only [bitAt_getLsbD, masks, BitVec.and_or_distrib_left]
  ac_rfl

/-! ## The counters (R47) and tcontrol (R61) -/

theorem csrRead_csrWrite_mcountinhibit (s : State) (v : Word) :
    csrRead (csrWrite s .mcountinhibit v) .mcountinhibit = v &&& 0x5 := by
  have mask : (0x5 : Word) = BitVec.twoPow 32 2 ||| BitVec.twoPow 32 0 := by decide
  simp only [csrRead, mcountinhibitValue, csrWrite, withCtr_ctr, bitAt_getLsbD, mask, BitVec.and_or_distrib_left]

theorem csrRead_csrWrite_tcontrol (s : State) (v : Word) :
    csrRead (csrWrite s .tcontrol v) .tcontrol = v &&& 0x88 := by
  have mask : (0x88 : Word) = BitVec.twoPow 32 7 ||| BitVec.twoPow 32 3 := by decide
  simp only [csrRead, csrWrite, withDbg_dbg, bitAt_getLsbD, mask, BitVec.and_or_distrib_left]

/-! ## mcontext (R62), dcsr (R63) and mhaltcause (R66) -/

theorem csrRead_csrWrite_mcontext (s : State) (v : Word) : csrRead (csrWrite s .mcontext v) .mcontext = v &&& 0x3F :=
  setWidth_low v (n := 6) rfl

theorem csrRead_csrWrite_mhaltcause (s : State) (v : Word) :
    csrRead (csrWrite s .mhaltcause v) .mhaltcause &&& 0xF = v &&& 0xF := by
  refine BitVec.eq_of_toNat_eq ?_
  rw [toNat_and_lowMask _ (n := 4) rfl, toNat_and_lowMask _ (n := 4) rfl, csrRead, csrWrite, withDbg_dbg, toNat_append_eq_add,
    BitVec.extractLsb'_toNat, Nat.shiftRight_zero]
  omega

/-- A write leaves CAUSE alone among the bits of dcsr that are not fixed. -/
theorem dcsrValue_and_cause (s : State) : dcsrValue s &&& (0x1C0 : Word) = s.dbg.cause.setWidth 32 <<< 6 := by
  have fields : ∀ a b c d e : Bool, ∀ cause : BitVec 3,
      (0x40000000#32 ||| bitAt a 15 ||| bitAt b 11 ||| bitAt c 10 ||| (cause.setWidth 32 <<< 6) ||| bitAt d 4 ||| bitAt e 2
        ||| 3) &&& (0x1C0 : Word) = cause.setWidth 32 <<< 6 := by decide
  exact fields ..

theorem csrRead_csrWrite_dcsr (s : State) (v : Word) :
    csrRead (csrWrite s .dcsr v) .dcsr = (v &&& 0x8C14) ||| (csrRead s .dcsr &&& 0x1C0) ||| 0x40000003 := by
  have masks : (0x8C14 : Word) = BitVec.twoPow 32 15 ||| BitVec.twoPow 32 11 ||| BitVec.twoPow 32 10 ||| BitVec.twoPow 32 4
      ||| BitVec.twoPow 32 2 := by decide
  have fixed : (0x40000003 : Word) = 0x40000000 ||| 3 := by decide
  have fields : v &&& 0x8C14 = bitAt (v.getLsbD 15) 15 ||| bitAt (v.getLsbD 11) 11 ||| bitAt (v.getLsbD 10) 10
      ||| bitAt (v.getLsbD 4) 4 ||| bitAt (v.getLsbD 2) 2 := by
    simp only [masks, bitAt_getLsbD, BitVec.and_or_distrib_left]
  have cause : csrRead s .dcsr &&& (0x1C0 : Word) = s.dbg.cause.setWidth 32 <<< 6 := dcsrValue_and_cause s
  have reorder : ∀ a b c d e f g h : Word,
      a ||| b ||| c ||| d ||| e ||| f ||| g ||| h = b ||| c ||| d ||| f ||| g ||| e ||| (a ||| h) := fun _ _ _ _ _ _ _ _ => by
    ac_rfl
  rw [fields, cause, fixed]
  exact reorder ..

/-! ## The triggers (R56 to R60) -/

theorem csrRead_csrWrite_tselect {s : State} (h : s.dbg.triggers ≠ []) (v : Word) :
    (csrRead (csrWrite s .tselect v) .tselect).toNat < s.dbg.triggers.length ∧
      (v.toNat < s.dbg.triggers.length → csrRead (csrWrite s .tselect v) .tselect = v) := by
  have hread : csrRead (csrWrite s .tselect v) .tselect = BitVec.ofNat 32 (tselectAfter s v) := rfl
  have hafter : tselectAfter s v < s.dbg.triggers.length := by
    unfold tselectAfter
    split
    · assumption
    · exact Nat.mod_lt _ (List.length_pos_iff.mpr h)
  refine ⟨?_, fun hv => ?_⟩
  · rw [hread, BitVec.toNat_ofNat]
    exact Nat.lt_of_le_of_lt (Nat.mod_le ..) hafter
  · rw [hread, tselectAfter, if_pos hv, BitVec.ofNat_toNat, BitVec.setWidth_eq]

/-- A write of a trigger that exists is read back. -/
theorem selected_setTrigger {s : State} (h : s.dbg.tselect < s.dbg.triggers.length) (t : Trigger) :
    selected (setTrigger s t) = t := by
  simp [selected, setTrigger, h]

/-- A bit of a word as a number. -/
theorem toNat_getLsbD (v : Word) (k : Nat) : (v.getLsbD k).toNat = v.toNat / 2 ^ k % 2 := by
  rw [BitVec.getLsbD, Nat.toNat_testBit]

theorem toNat_ite_bit (b : Bool) : (if b then (1 : BitVec 1) else 0).toNat = b.toNat := by
  cases b <;> rfl

/-- tdata1 as a number: TYPE above DMODE above DATA (R57). -/
theorem toNat_tdata1Value (t : Trigger) :
    (tdata1Value t).toNat = t.type.toNat * 2 ^ 28 + t.dmode.toNat * 2 ^ 27 + t.data.toNat := by
  rw [tdata1Value, toNat_append_eq_add, toNat_append_eq_add, toNat_ite_bit]
  omega

/-- tinfo tells the kind of the selected trigger (R60). -/
theorem kind_of_tinfo (t : Trigger) :
    (tinfoValue t = 0x0004 → t.kind = .mcontrol) ∧ (tinfoValue t = 0x0038 → t.kind = .configurable) := by
  unfold tinfoValue
  cases t.kind <;> decide

theorem typeAfter_mcontrol {s : State} {t : Trigger} (h : t.kind = .mcontrol) (v : BitVec 4) : typeAfter s t v = 2 := by
  rw [typeAfter, h]

/-- A configurable trigger takes the types 3, 4 and 5, and one of them for any other (R57). -/
theorem typeAfter_configurable {s : State} {t : Trigger} (h : t.kind = .configurable) (v : BitVec 4) :
    (typeAfter s t v = 3 ∨ typeAfter s t v = 4 ∨ typeAfter s t v = 5) ∧
      (v = 3 ∨ v = 4 ∨ v = 5 → typeAfter s t v = v) := by
  have free : ∀ k : Fin 3,
      BitVec.ofNat 4 (3 + k.val) = 3 ∨ BitVec.ofNat 4 (3 + k.val) = 4 ∨ BitVec.ofNat 4 (3 + k.val) = 5 := by
    decide
  rw [typeAfter, h]
  dsimp only
  split
  case isTrue hv => exact ⟨hv, fun _ => rfl⟩
  case isFalse hv => exact ⟨free _, fun hv' => absurd hv' hv⟩

section
variable {s : State} (h : s.dbg.tselect < s.dbg.triggers.length) (v : Word)
include h

theorem csrRead_csrWrite_tdata2 : csrRead (csrWrite s .tdata2 v) .tdata2 = v := by
  rw [csrRead, csrWrite, selected_setTrigger h]

/-- MVALUE and MSELECT are the seven upper bits (R59). -/
theorem csrRead_csrWrite_tdata3 : csrRead (csrWrite s .tdata3 v) .tdata3 = v &&& 0xFE000000 := by
  have mask : (0xFE000000 : Word) = BitVec.allOnes 7 ++ (0 : BitVec 25) := by decide
  have parts : v.extractLsb' 26 6 ++ (if v.getLsbD 25 then (1 : BitVec 1) else 0) = v.extractLsb' 25 7 := by
    refine BitVec.eq_of_toNat_eq ?_
    rw [toNat_append_eq_add, toNat_ite_bit, toNat_getLsbD, BitVec.extractLsb'_toNat, BitVec.extractLsb'_toNat,
      Nat.shiftRight_eq_div_pow, Nat.shiftRight_eq_div_pow]
    omega
  rw [csrRead, csrWrite, selected_setTrigger h, tdata3Value, mask]
  exact (congrArg (· ++ (0 : BitVec 25)) parts).trans (extractLsb'_append_zero (m := 7) (n := 25) v)

/-- tdata1 takes a written value below TYPE, and TYPE by its own rule. -/
theorem toNat_csrWrite_tdata1 :
    (csrRead (csrWrite s .tdata1 v) .tdata1).toNat =
      (typeAfter s (selected s) (v.extractLsb' 28 4)).toNat * 2 ^ 28 + v.toNat % 2 ^ 28 := by
  rw [csrRead, csrWrite, selected_setTrigger h, toNat_tdata1Value]
  dsimp only
  rw [toNat_getLsbD, BitVec.extractLsb'_toNat, Nat.shiftRight_zero]
  omega

theorem csrWrite_tdata1_type :
    (csrRead (csrWrite s .tdata1 v) .tdata1).toNat / 2 ^ 28 = (typeAfter s (selected s) (v.extractLsb' 28 4)).toNat := by
  rw [toNat_csrWrite_tdata1 h]
  omega

theorem csrRead_csrWrite_tdata1 :
    csrRead (csrWrite s .tdata1 v) .tdata1 &&& 0x0FFFFFFF = v &&& 0x0FFFFFFF ∧
      (csrRead s .tinfo = 0x0004 → (csrRead (csrWrite s .tdata1 v) .tdata1).toNat / 2 ^ 28 = 2) ∧
      (csrRead s .tinfo = 0x0038 →
        ((csrRead (csrWrite s .tdata1 v) .tdata1).toNat / 2 ^ 28 = 3 ∨
          (csrRead (csrWrite s .tdata1 v) .tdata1).toNat / 2 ^ 28 = 4 ∨
          (csrRead (csrWrite s .tdata1 v) .tdata1).toNat / 2 ^ 28 = 5) ∧
        (v.toNat / 2 ^ 28 = 3 ∨ v.toNat / 2 ^ 28 = 4 ∨ v.toNat / 2 ^ 28 = 5 →
          csrRead (csrWrite s .tdata1 v) .tdata1 = v)) := by
  rw [csrWrite_tdata1_type h]
  refine ⟨BitVec.eq_of_toNat_eq ?_, fun htinfo => ?_, fun htinfo => ?_⟩
  · rw [toNat_and_lowMask _ (n := 28) rfl, toNat_and_lowMask _ (n := 28) rfl, toNat_csrWrite_tdata1 h]
    omega
  · rw [typeAfter_mcontrol ((kind_of_tinfo _).1 htinfo)]
    rfl
  · obtain ⟨legal, kept⟩ := typeAfter_configurable (s := s) ((kind_of_tinfo _).2 htinfo) (v.extractLsb' 28 4)
    refine ⟨by rcases legal with e | e | e <;> simp [e], fun hv => BitVec.eq_of_toNat_eq ?_⟩
    have htype : (v.extractLsb' 28 4).toNat = v.toNat / 2 ^ 28 := by
      rw [BitVec.extractLsb'_toNat, Nat.shiftRight_eq_div_pow]
      omega
    rw [← htype] at hv
    rw [toNat_csrWrite_tdata1 h, kept (hv.imp BitVec.eq_of_toNat_eq (.imp BitVec.eq_of_toNat_eq BitVec.eq_of_toNat_eq)), htype]
    omega

end

/-! ## mxstatus and mexstatus, by their layouts (R50, R53) -/

/-- A bit placed at a position, bit by bit. -/
theorem getLsbD_bitAt (b : Bool) (p : Nat) {k : Nat} (hk : k < 32) : (bitAt b p).getLsbD k = (decide (k = p) && b) := by
  cases b with
  | false => simp [bitAt, boolWord]
  | true =>
    have hone : bitAt true p = BitVec.twoPow 32 p := by simp [bitAt, boolWord, BitVec.twoPow]
    rw [hone, BitVec.getLsbD_twoPow]
    by_cases h : k = p
    · simp [← h, hk]
    · simp [h, Ne.symm h]

/-- Two bits placed at a position, bit by bit. -/
theorem getLsbD_shifted_two (x : BitVec 2) (p : Nat) {k : Nat} (hk : k < 32) :
    (x.setWidth 32 <<< p : Word).getLsbD k = if k = p then x.getLsbD 0 else if k = p + 1 then x.getLsbD 1 else false := by
  rw [BitVec.getLsbD_shiftLeft, BitVec.getLsbD_setWidth]
  split
  case isTrue h => simp [h, h ▸ hk]
  case isFalse h =>
    split
    case isTrue h1 => simp [h1, h1 ▸ hk]
    case isFalse h1 =>
      by_cases hlt : k < p
      · simp [hlt]
      · simp [BitVec.getLsbD_of_ge x (k - p) (by omega)]

/-- The layout of mxstatus keeps COPINSTEE and PM apart and inside the register. -/
theorem mxstatus_layout {c : Config} (h : c.wf = true) :
    c.mxstatus.copBit < 32 ∧ c.mxstatus.pmLow < 31 ∧ c.mxstatus.copBit ≠ c.mxstatus.pmLow ∧
      c.mxstatus.copBit ≠ c.mxstatus.pmLow + 1 := by
  simp only [Config.wf, Bool.and_eq_true, decide_eq_true_eq, bne_iff_ne] at h
  obtain ⟨⟨⟨_, hcop, hpm⟩, hne, hne1⟩, _⟩ := h
  exact ⟨hcop, hpm, hne, hne1⟩

theorem csrRead_csrWrite_mxstatus {s : State} (h : s.cfg.wf = true) (v : Word) {k : Nat} (hk : k < 32) :
    (csrRead (csrWrite s .mxstatus v) .mxstatus).getLsbD k =
      if k = s.cfg.mxstatus.copBit then v.getLsbD k
      else if k = s.cfg.mxstatus.pmLow ∨ k = s.cfg.mxstatus.pmLow + 1 then true
      else s.cfg.mxstatus.other.getLsbD k := by
  obtain ⟨_, _, hne, hne1⟩ := mxstatus_layout h
  have cop : (1#32 <<< s.cfg.mxstatus.copBit) = bitAt true s.cfg.mxstatus.copBit := rfl
  have pm : (3#32 <<< s.cfg.mxstatus.pmLow) = ((3#2).setWidth 32 <<< s.cfg.mxstatus.pmLow : Word) := rfl
  rw [csrRead, mxstatusValue, csrWrite, withCsr_csr, withCsr_cfg, cop, pm]
  simp only [BitVec.getLsbD_or, BitVec.getLsbD_and, BitVec.getLsbD_not, getLsbD_bitAt _ _ hk, getLsbD_shifted_two _ _ hk, hk]
  by_cases hcop : k = s.cfg.mxstatus.copBit
  · simp [hcop, hne, hne1]
  · by_cases hlow : k = s.cfg.mxstatus.pmLow
    · simp [hlow, hne.symm]
    · by_cases hhigh : k = s.cfg.mxstatus.pmLow + 1
      · simp [hhigh, hne1.symm]
      · simp [hcop, hlow, hhigh]

/-- The layout of mexstatus keeps its fields apart and inside the register. -/
theorem mexstatus_layout {c : Config} (h : c.wf = true) :
    let l := c.mexstatus
    (∀ k ∈ [l.softRst, l.softRst + 1, l.lpmd, l.lpmd + 1, l.wfe, l.exptVld, l.lockup], k < 32) ∧
      [l.softRst, l.softRst + 1, l.lpmd, l.lpmd + 1, l.wfe, l.exptVld, l.lockup].Nodup := by
  have hwf : c.mexstatus.wf = true := by
    simp only [Config.wf, Bool.and_eq_true] at h
    exact h.2
  simp only [MexstatusLayout.wf, Bool.and_eq_true, decide_eq_true_eq, List.all_eq_true] at hwf
  exact ⟨hwf.2, hwf.1⟩

/-- mexstatus bit by bit. -/
theorem getLsbD_mexstatusValue (s : State) {k : Nat} (hk : k < 32) :
    (mexstatusValue s).getLsbD k =
      let l := s.cfg.mexstatus
      (if k = l.softRst then s.csr.softRst.getLsbD 0 else if k = l.softRst + 1 then s.csr.softRst.getLsbD 1 else false) ||
        (if k = l.lpmd then s.csr.lpmd.getLsbD 0 else if k = l.lpmd + 1 then s.csr.lpmd.getLsbD 1 else false) ||
        (decide (k = l.wfe) && s.csr.wfe) || (decide (k = l.exptVld) && s.csr.exptVld) ||
        (decide (k = l.lockup) && s.csr.lockup) := by
  simp only [mexstatusValue, BitVec.getLsbD_or, getLsbD_shifted_two _ _ hk, getLsbD_bitAt _ _ hk]

/-- A two-bit field from its two bits. -/
theorem twoAt_eq {x : Word} {k : Nat} {b : BitVec 2} (h0 : x.getLsbD k = b.getLsbD 0)
    (h1 : x.getLsbD (k + 1) = b.getLsbD 1) : twoAt x k = b := by
  refine BitVec.eq_of_getLsbD_eq fun i hi => ?_
  have hi' : i = 0 ∨ i = 1 := by omega
  rcases hi' with rfl | rfl
  · simpa [twoAt] using h0
  · simpa [twoAt] using h1

/-- Each field of mexstatus reads the state's. -/
theorem mexstatusValue_fields {s : State} (h : s.cfg.wf = true) :
    let l := s.cfg.mexstatus
    let r := mexstatusValue s
    twoAt r l.softRst = s.csr.softRst ∧ twoAt r l.lpmd = s.csr.lpmd ∧ r.getLsbD l.wfe = s.csr.wfe ∧
      r.getLsbD l.exptVld = s.csr.exptVld ∧ r.getLsbD l.lockup = s.csr.lockup := by
  obtain ⟨hlt, hnodup⟩ := mexstatus_layout h
  simp only [List.forall_mem_cons] at hlt
  have hrev := List.nodup_reverse.mpr hnodup
  simp only [List.reverse_cons, List.reverse_nil, List.nil_append, List.cons_append, List.nodup_cons, List.mem_cons,
    List.not_mem_nil, not_or, or_false] at hnodup hrev
  obtain ⟨hsoft, hsoft1, hlpmd, hlpmd1, hwfe, hexpt, hlockup, _⟩ := hlt
  refine ⟨twoAt_eq ?_ ?_, twoAt_eq ?_ ?_, ?_, ?_, ?_⟩
  · simp [getLsbD_mexstatusValue s hsoft, hnodup]
  · simp [getLsbD_mexstatusValue s hsoft1, hnodup]
  · simp [getLsbD_mexstatusValue s hlpmd, hnodup, hrev]
  · simp [getLsbD_mexstatusValue s hlpmd1, hnodup, hrev]
  · simp [getLsbD_mexstatusValue s hwfe, hnodup, hrev]
  · simp [getLsbD_mexstatusValue s hexpt, hnodup, hrev]
  · simp [getLsbD_mexstatusValue s hlockup, hrev]

theorem csrRead_csrWrite_mexstatus {s : State} (h : s.cfg.wf = true) (v : Word) :
    let l := s.cfg.mexstatus
    let r := csrRead s .mexstatus
    let t := csrRead (csrWrite s .mexstatus v) .mexstatus
    (twoAt v l.softRst ≠ 3 → twoAt t l.softRst = twoAt v l.softRst ∧
      padSrst (csrWrite s .mexstatus v) = twoAt v l.softRst) ∧
    twoAt t l.lpmd = (if twoAt v l.lpmd = 0 ∨ twoAt v l.lpmd = 1 then twoAt v l.lpmd else twoAt r l.lpmd) ∧
    t.getLsbD l.wfe = v.getLsbD l.wfe ∧
    t.getLsbD l.exptVld = (if s.dbg.debugMode then v.getLsbD l.exptVld else r.getLsbD l.exptVld) ∧
    t.getLsbD l.lockup = r.getLsbD l.lockup := by
  obtain ⟨_, lpmd, _, expt, lockup⟩ := mexstatusValue_fields h
  obtain ⟨soft', lpmd', wfe', expt', lockup'⟩ := mexstatusValue_fields (s := csrWrite s .mexstatus v) h
  have written : (csrWrite s .mexstatus v).csr = mexstatusAfter s v := rfl
  rw [written] at soft' lpmd' wfe' expt' lockup'
  refine ⟨fun hne => ?_, lpmd'.trans ?_, wfe', expt'.trans ?_, lockup'.trans lockup.symm⟩
  · have soft : (mexstatusAfter s v).softRst = twoAt v s.cfg.mexstatus.softRst := if_neg hne
    exact ⟨soft'.trans soft, soft⟩
  · simp only [csrRead, lpmd, mexstatusAfter]
  · simp only [csrRead, expt, mexstatusAfter]

/-- Settles O29: CSR by CSR, the value read back has the fields the write left. -/
theorem csrFieldsAfterWrite : Obligations.CsrFieldsAfterWrite := by
  intro s v
  refine ⟨fun h => csrRead_csrWrite_bases h v, rfl, csrRead_csrWrite_mepc s, csrRead_csrWrite_mcause,
    csrRead_csrWrite_mcountinhibit s v, rfl, rfl, csrRead_csrWrite_tcontrol s v, csrRead_csrWrite_mcontext s v,
    csrRead_csrWrite_mhaltcause s v, csrRead_csrWrite_dcsr s v, rfl, rfl, rfl, fun h => csrRead_csrWrite_tselect h v,
    fun h => ⟨csrRead_csrWrite_tdata2 h v, csrRead_csrWrite_tdata3 h v, csrRead_csrWrite_tdata1 h v⟩,
    fun h => ⟨fun _ hk => csrRead_csrWrite_mxstatus h v hk, csrRead_csrWrite_mexstatus h v⟩⟩

end Sys2Proof.Machine
end

section
/-!
Every step keeps the invariant of the machine, and the reset state has it: the invariant part by part, what every shared
operation of the meanings keeps of it, then every instruction, every debugger command, and every way a step can go.
-/

namespace Sys2Proof.Machine

/-! ## The parts of the invariant -/

/-- The address is one the pc holds: even (10_state.md R27), and with the high bits PC_HIGH_POLICY leaves it (R28). -/
def HeldAddress (v : Word) : Prop := v.getLsbD 0 = false ∧ normPc v = v

/-- What the invariant says of the machine CSRs (10_state.md R43, R53). -/
def CsrsLegal (c : Csrs) : Prop := HeldAddress c.mepc ∧ (c.lpmd = 0 ∨ c.lpmd = 1)

/-- What the invariant says of the CLIC (60_exceptions.md R446, R449, R420). -/
def ClicLegal (c : Clic) : Prop := ∀ i : Fin 128, ClicSource.legal i.val c.sources[i]

/-- What the invariant says of the debug unit (10_state.md R56, R57). -/
def DebugLegal (d : DebugUnit) : Prop :=
  (∀ t ∈ d.triggers, legalTrigger t) ∧ (d.triggers ≠ [] → d.tselect < d.triggers.length)

theorem inv_iff (s : State) :
    Inv s ↔ Memory.wf s.mem ∧ HeldAddress s.pc ∧ CsrsLegal s.csr ∧ ClicLegal s.clic ∧ DebugLegal s.dbg :=
  ⟨fun ⟨hmem, hpc, hpc', hmepc, hmepc', hlpmd, hclic, htriggers, htselect⟩ =>
      ⟨hmem, ⟨hpc, hpc'⟩, ⟨⟨hmepc, hmepc'⟩, hlpmd⟩, hclic, htriggers, htselect⟩,
    fun ⟨hmem, ⟨hpc, hpc'⟩, ⟨⟨hmepc, hmepc'⟩, hlpmd⟩, hclic, htriggers, htselect⟩ =>
      ⟨hmem, hpc, hpc', hmepc, hmepc', hlpmd, hclic, htriggers, htselect⟩⟩

theorem Inv.pc {s : State} (h : Inv s) : HeldAddress s.pc := ⟨h.pcEven, h.pcHeld⟩

theorem Inv.csr {s : State} (h : Inv s) : CsrsLegal s.csr := ⟨⟨h.mepcEven, h.mepcHeld⟩, h.lpmd⟩

theorem Inv.dbg {s : State} (h : Inv s) : DebugLegal s.dbg := ⟨h.triggers, h.tselect⟩

/-- An update of the registers, the counters, the pc and what the invariant does not speak of. -/
theorem Inv.withPc {s t : State} (h : Inv s) (hpc : HeldAddress t.pc) (hmem : t.mem = s.mem) (hcsr : t.csr = s.csr)
    (hclic : t.clic = s.clic) (hdbg : t.dbg = s.dbg) : Inv t :=
  (inv_iff t).mpr ⟨hmem ▸ h.mem, hpc, hcsr ▸ h.csr, hclic ▸ h.sources, hdbg ▸ h.dbg⟩

/-- An update of what the invariant does not speak of. -/
theorem Inv.congr {s t : State} (h : Inv s) (hpc : t.pc = s.pc) (hmem : t.mem = s.mem) (hcsr : t.csr = s.csr)
    (hclic : t.clic = s.clic) (hdbg : t.dbg = s.dbg) : Inv t :=
  h.withPc (hpc ▸ h.pc) hmem hcsr hclic hdbg

/-! ## Even addresses -/

/-- The pc holds an even address as it holds every address. -/
theorem heldAddress_normPc {v : Word} (h : v.getLsbD 0 = false) : HeldAddress (normPc v) :=
  ⟨(normPc_getLsbD v (by decide)).trans h, normPc_idem v⟩

theorem heldAddress_zero : HeldAddress 0 := ⟨by decide, normPc_low (show (0 : Word).toNat < mainSize by decide)⟩

/-- Offsets of branches and jumps are even (30_encoding.md R147, R149, R157, R158). -/
theorem signExtend_append_even {n : Nat} (imm : BitVec n) :
    ((imm ++ (0 : BitVec 1)).signExtend 32).getLsbD 0 = false := by
  rw [BitVec.getLsbD_signExtend, if_pos (by omega), BitVec.getLsbD_append]
  simp

/-- The base of a table or of the trap vector is even (10_state.md R38). -/
theorem append_base_even (base : BitVec 26) : (base ++ (0 : BitVec 6) : Word).getLsbD 0 = false := by
  rw [BitVec.getLsbD_append]
  simp

/-! ## Updates of the state -/

theorem inv_setX {s : State} (h : Inv s) (r : Reg) (v : Word) : Inv (s.setX r v) :=
  h.congr (by simp) (by simp) (by simp) (by simp) (by simp)

theorem inv_retireTo {s : State} (h : Inv s) {v : Word} (hv : v.getLsbD 0 = false) : Inv (s.retireTo v) :=
  h.withPc (retireTo_pc s v ▸ heldAddress_normPc hv) (by simp) (by simp) (by simp) (by simp)

theorem inv_retire {s : State} (h : Inv s) {len : Word} (hlen : len.getLsbD 0 = false) : Inv (s.retire len) :=
  inv_retireTo h (add_even h.pcEven hlen)

/-- Trap entry changes nothing of the debug unit but tcontrol (10_state.md R61). -/
theorem debugLegal_saveMte {s : State} (h : DebugLegal s.dbg) : DebugLegal s.saveMte.dbg := by
  unfold State.saveMte
  split <;> exact h

theorem inv_enterException {s : State} (h : Inv s) (code : Nat) : Inv (enterException s code) := by
  refine (inv_iff _).mpr ⟨?_, heldAddress_normPc ?_, ⟨?_, ?_⟩, ?_, debugLegal_saveMte h.dbg⟩
  · rw [enterException_mem]
    exact h.mem
  · exact append_base_even _
  · rw [enterException_csr]
    exact heldAddress_normPc (clearBit0_even s.pc)
  · rw [enterException_csr]
    exact h.lpmd
  · rw [enterException_clic]
    exact h.sources

theorem inv_raise {s : State} (h : Inv s) (code : Nat) : Inv (raise s code) := by
  unfold raise
  split
  · exact (inv_iff _).mpr ⟨h.mem, h.pc, h.csr, h.sources, h.dbg⟩
  · exact inv_enterException h code

theorem inv_enterDebug {s : State} (h : Inv s) (cause : BitVec 3) (haltcause : BitVec 4) :
    Inv (enterDebug s cause haltcause) :=
  (inv_iff _).mpr ⟨h.mem, h.pc, h.csr, h.sources, h.dbg⟩

theorem inv_breakpointInstruction {s : State} (h : Inv s) : Inv (breakpointInstruction s) := by
  unfold breakpointInstruction
  split
  · exact inv_enterDebug h 1 1
  · exact inv_enterException h 3

theorem inv_returnFromTrap {s : State} (h : Inv s) : Inv (returnFromTrap s) := by
  refine (inv_iff _).mpr ⟨h.mem, h.pc, h.csr, h.sources, ?_⟩
  simp only [returnFromTrap]
  split <;> exact h.dbg

theorem inv_leaveDebug {s : State} (h : Inv s) : Inv (leaveDebug s) := by
  refine (inv_iff _).mpr ⟨h.mem, heldAddress_normPc (clearBit0_even _), ?_, h.sources, h.dbg⟩
  simp only [leaveDebug]
  split <;> exact h.csr

/-! ## CSR writes -/

theorem csrsLegal_csrWrite {s : State} (h : CsrsLegal s.csr) (c : CsrName) (v : Word) : CsrsLegal (csrWrite s c v).csr := by
  obtain ⟨hmepc, hlpmd⟩ := h
  cases c
  case mepc => exact ⟨heldAddress_normPc (clearBit0_even v), hlpmd⟩
  case mexstatus =>
    refine ⟨hmepc, ?_⟩
    simp only [csrWrite, withCsr, mexstatusAfter]
    split
    · assumption
    · exact hlpmd
  all_goals exact ⟨hmepc, hlpmd⟩

/-- The selected trigger, where it exists, is one of the triggers. -/
theorem legalTrigger_selected {s : State} (h : DebugLegal s.dbg) (hsel : s.dbg.tselect < s.dbg.triggers.length) :
    legalTrigger (selected s) := by
  rw [selected, List.getElem?_eq_getElem hsel]
  exact h.1 _ (List.getElem_mem hsel)

/-- Replacing the selected trigger by one that is as legal: a trigger that does not exist is not replaced. -/
theorem debugLegal_setTrigger {s : State} (h : DebugLegal s.dbg) {t : Trigger}
    (ht : legalTrigger (selected s) → legalTrigger t) : DebugLegal (setTrigger s t).dbg := by
  by_cases hsel : s.dbg.tselect < s.dbg.triggers.length
  · refine ⟨fun u hu => ?_, fun _ => ?_⟩
    · rcases List.mem_or_eq_of_mem_set hu with hu | rfl
      · exact h.1 u hu
      · exact ht (legalTrigger_selected h hsel)
    · simpa [setTrigger, withDbg] using hsel
  · have hkept : (setTrigger s t).dbg.triggers = s.dbg.triggers := List.set_eq_of_length_le (Nat.le_of_not_lt hsel)
    exact ⟨fun u hu => h.1 u (hkept ▸ hu), fun hne => absurd (h.2 (hkept ▸ hne)) hsel⟩

theorem tselectAfter_lt {s : State} (h : s.dbg.triggers ≠ []) (v : Word) : tselectAfter s v < s.dbg.triggers.length := by
  unfold tselectAfter
  split
  · assumption
  · exact Nat.mod_lt _ (List.length_pos_of_ne_nil h)

/-- tdata1.TYPE after a write is one the trigger's kind allows (R57). -/
theorem legalTrigger_typeAfter {s : State} {t u : Trigger} (hkind : u.kind = t.kind) {v : BitVec 4}
    (htype : u.type = typeAfter s t v) : legalTrigger u := by
  unfold legalTrigger
  cases hk : t.kind with
  | mcontrol =>
    rw [hkind, hk]
    exact htype.trans (typeAfter_mcontrol hk v)
  | configurable =>
    rw [hkind, hk, htype]
    exact (typeAfter_configurable hk v).1

theorem debugLegal_csrWrite {s : State} (h : DebugLegal s.dbg) (c : CsrName) (v : Word) : DebugLegal (csrWrite s c v).dbg := by
  cases c
  case tselect => exact ⟨h.1, fun hne => tselectAfter_lt hne v⟩
  case tdata1 => exact debugLegal_setTrigger h fun _ => legalTrigger_typeAfter rfl rfl
  case tdata2 => exact debugLegal_setTrigger h id
  case tdata3 => exact debugLegal_setTrigger h id
  all_goals exact h

theorem inv_csrWrite {s : State} (h : Inv s) (c : CsrName) (v : Word) : Inv (csrWrite s c v) := by
  obtain ⟨_, _, hpc, hclic, _, hmem, _⟩ := csrWrite_frame s c v
  exact (inv_iff _).mpr
    ⟨hmem ▸ h.mem, hpc ▸ h.pc, csrsLegal_csrWrite h.csr c v, hclic ▸ h.sources, debugLegal_csrWrite h.dbg c v⟩

/-- A CSR instruction retires to the instruction after it. -/
theorem inv_retireCsr {s t : State} (h : Inv t) (hpc : t.pc = s.pc) (c : CsrName) : Inv (retireCsr s t c) := by
  obtain ⟨_, _, hcsr, hdbg, hclic, _, hmem, _⟩ := retireCsr_frame s t c
  refine h.withPc ?_ hmem hcsr hclic hdbg
  rw [retireCsr_pc hpc]
  exact heldAddress_normPc (add_even (hpc ▸ h.pcEven) (by decide))

/-! ## The CLINT and the CLIC -/

theorem clicLegal_iff (s : State) : ClicLegal s.clic ↔ ∀ id < 128, ClicSource.legal id (sourceOf s id) := by
  refine ⟨fun h id hid => ?_, fun h i => ?_⟩
  · simpa [sourceOf, hid] using h ⟨id, hid⟩
  · simpa [sourceOf] using h i.val i.isLt

/-- A store leaves no source that R420 and R449 forbid, and a level source without a latch (R446). -/
theorem legal_writeSource {s : State} {id : Nat} {ip ie attr : Option Byte} {x : ClicSource}
    (h : writeSource s id ip ie attr = .ok x) : ClicSource.legal id x := by
  simp only [writeSource] at h
  split at h
  · cases h
  · rename_i hreserved
    split at h
    · cases h
    · rename_i hclint
      injection h with h
      subst h
      dsimp only [ClicSource.legal]
      refine ⟨fun hlevel => ⟨by rw [hlevel]; rfl, ?_⟩, fun hid => ?_⟩
      · rw [hlevel] at hreserved
        simpa using hreserved
      · have hid : (id == 3 || id == 7) = true := by simpa using hid
        rw [hid] at hclint
        simpa using hclint

theorem clicLegal_setSource {s : State} (h : ClicLegal s.clic) {id : Nat} {x : ClicSource} (hx : ClicSource.legal id x) :
    ClicLegal (setSource s id x).clic := by
  rw [clicLegal_iff] at h ⊢
  intro j hj
  by_cases hid : id < 128
  · rw [sourceOf_setSource hid]
    split
    · rename_i hjid
      exact hjid ▸ hx
    · exact h j hj
  · have hkept : sourceOf (setSource s id x) j = sourceOf s j := by
      rw [sourceOf, setSource, Vector.getElem?_setIfInBounds_ne (by omega), sourceOf]
    exact hkept ▸ h j hj

theorem clicLegal_storeSource {s t : State} {id : Nat} {ip ie attr : Option Byte} (h : ClicLegal s.clic)
    (ht : storeSource s id ip ie attr = .ok t) : ClicLegal t.clic := by
  obtain ⟨x, hx, rfl⟩ := storeSource_ok ht
  exact clicLegal_setSource h (legal_writeSource hx)

theorem clicLegal_tcipWrite {s t : State} {w : Width} {a : Nat} {v : Word} (h : ClicLegal s.clic)
    (ht : tcipWrite s w a v = .ok t) : ClicLegal t.clic := by
  unfold tcipWrite at ht
  split at ht
  · cases ht
  · split at ht
    · exact clicLegal_storeSource h ht
    · exact clicLegal_storeSource h ht
    · exact clicLegal_storeSource h ht
    · cases ht; exact h
    · cases ht
  · split at ht
    · cases ht; exact h
    · split at ht
      · cases ht; exact h
      · split at ht
        · cases ht; exact h
        · split at ht
          · exact clicLegal_storeSource h ht
          · cases ht

/-- An edge moves no source out of its mode. -/
theorem legal_sampleSource {old new : BitVec 112} {id : Nat} {x : ClicSource} (h : ClicSource.legal id x) :
    ClicSource.legal id (sampleSource old new id x) := by
  unfold sampleSource
  split
  · rename_i hedge
    have hedge : x.edge = true := by
      simp only [Bool.and_eq_true] at hedge
      exact hedge.1.2
    exact ⟨fun hlevel => absurd (hedge.symm.trans hlevel) (by decide), h.2⟩
  · exact h

theorem inv_sample {s : State} (h : Inv s) (i : StepInput) : Inv (sample s i) := by
  refine (inv_iff _).mpr ⟨h.mem, h.pc, h.csr, ?_, h.dbg⟩
  have hsources := (clicLegal_iff s).mp h.sources
  refine (clicLegal_iff _).mpr fun id hid => ?_
  rw [sourceOf_sample hid]
  exact legal_sampleSource (hsources id hid)

/-! ## Data accesses -/

theorem inv_of_tcipWrite {s t : State} {w : Width} {a : Nat} {v : Word} (h : Inv s) (ht : tcipWrite s w a v = .ok t) :
    Inv t := by
  have hclic := clicLegal_tcipWrite h.sources ht
  obtain ⟨c, rfl⟩ := tcipWrite_ok ht
  exact (inv_iff _).mpr ⟨h.mem, h.pc, h.csr, hclic, h.dbg⟩

theorem inv_storeMain {s : State} (h : Inv s) {w : Width} {a : Word} (haligned : misaligned w a = false) (v : Word) :
    Inv (storeMain s w (mainAddr a) v) :=
  (inv_iff _).mpr ⟨write_wf h.mem w (aligned_room haligned) v, h.pc, h.csr, h.sources, h.dbg⟩

theorem inv_storeDevice {s : State} (h : Inv s) (w : Width) (a : Nat) (v : Word) : Inv (storeDevice s w a v) :=
  h.congr rfl rfl rfl rfl rfl

theorem inv_of_loadMem {s t : State} {w : Width} {a v : Word} (h : Inv s) (ht : loadMem s w a = .ok (v, t)) : Inv t := by
  rw [loadMem_frame ht]
  exact h.congr rfl rfl rfl rfl rfl

theorem inv_of_storeMem {s t : State} {w : Width} {a v : Word} (h : Inv s) (ht : storeMem s w a v = .ok t) : Inv t := by
  rcases storeMem_ok ht with ⟨⟨haligned, _⟩, rfl⟩ | ⟨_, rfl⟩ | ⟨_, _, ht⟩
  · exact inv_storeMain h haligned v
  · exact inv_storeDevice h w _ v
  · exact inv_of_tcipWrite h ht

theorem inv_of_loadVector {s t : State} {a v : Word} (h : Inv s) (ht : loadVector s a = .ok (v, t)) : Inv t := by
  unfold loadVector at ht
  split at ht
  · cases ht
  · split at ht
    · cases ht
    · split at ht
      · cases ht
      · split at ht <;> cases ht
        · exact h.congr rfl rfl rfl rfl rfl
        · exact h

/-! ## How an instruction ends -/

/-- Whatever state the answer holds has the invariant. -/
def AnswersInv : Out → Prop
  | .next t => Inv t
  | .fault _ => True
  | .refused _ => True

theorem answersInv_next {t : State} (h : Inv t) : AnswersInv (.next t) := h

theorem answersInv_ite {p : Prop} [Decidable p] {k k' : Out} (h : AnswersInv k) (h' : AnswersInv k') :
    AnswersInv (if p then k else k') := by
  split
  · exact h
  · exact h'

theorem answersInv_elim {α : Type} {s : State} (h : Inv s) {r : Res α} {k : α → Out}
    (hk : ∀ v, r = .ok v → AnswersInv (k v)) : AnswersInv (r.elim s k) := by
  cases r with
  | ok v => exact hk v rfl
  | exc code => exact inv_raise h code
  | fault f => trivial
  | refused r => trivial

theorem answersInv_gated {s : State} (h : Inv s) {b : Bool} {k : Out} (hk : AnswersInv k) : AnswersInv (gated b s k) :=
  answersInv_ite hk (inv_raise h 2)

section
variable {s : State} (h : Inv s) {len : Word} (hlen : len.getLsbD 0 = false)
include h hlen

theorem answersInv_writeTo {rd : Reg} {v : Word} : AnswersInv (writeTo s len rd v) := inv_retire (inv_setX h rd v) hlen

theorem answersInv_gated_writeTo {b : Bool} {rd : Reg} {v : Word} : AnswersInv (gated b s (writeTo s len rd v)) :=
  answersInv_gated h (answersInv_writeTo h hlen)

theorem answersInv_branchTo {taken : Bool} {off : Word} (hoff : off.getLsbD 0 = false) :
    AnswersInv (branchTo s len taken off) := by
  cases taken
  · exact inv_retire h hlen
  · exact inv_retireTo h (add_even h.pcEven hoff)

theorem answersInv_loadTo {w : Width} {rd : Reg} {a : Word} {ext : Word → Word} : AnswersInv (loadTo s len w rd a ext) :=
  answersInv_elim h fun r hr => answersInv_writeTo (inv_of_loadMem (t := r.2) h hr) hlen

theorem answersInv_storeFrom {w : Width} {a v : Word} : AnswersInv (storeFrom s len w a v) :=
  answersInv_elim h fun _ ht => inv_retire (inv_of_storeMem h ht) hlen

end

theorem answersInv_jumpLink {s : State} (h : Inv s) {len : Word} {rd : Reg} {v : Word} (hv : v.getLsbD 0 = false) :
    AnswersInv (jumpLink s len rd v) :=
  inv_retireTo (inv_setX h rd _) hv

/-! ## CSR and coprocessor instructions -/

theorem inv_of_csrResult {s t : State} {rd : Reg} {n : BitVec 12} (h : Inv s) (ht : CsrResult s rd n t) : Inv t := by
  cases ht with
  | trap => exact inv_raise h 2
  | read c => exact inv_retire (inv_setX h rd _) (by decide)
  | write c v _ =>
    obtain ⟨_, _, hpc, _⟩ := csrWrite_frame s c v
    exact inv_retireCsr (inv_setX (inv_csrWrite h c v) rd _) (by simpa using hpc) c

/-- Each of the six CSR instructions. -/
theorem answersInv_csr {s : State} (h : Inv s) {rd rs1 : Reg} {imm : BitVec 5} {n : BitVec 12} {i : Instr}
    (hi : i ∈ [Instr.csrrw rd rs1 n, .csrrs rd rs1 n, .csrrc rd rs1 n, .csrrwi rd imm n, .csrrsi rd imm n,
      .csrrci rd imm n]) : AnswersInv (exec i s) := by
  cases ht : exec i s with
  | next t => exact inv_of_csrResult h (csrResult_of_exec hi ht)
  | fault f => trivial
  | refused r => trivial

theorem inv_withCop {s : State} (h : Inv s) (l : List CopReq) : Inv { s with cop := l } := h.congr rfl rfl rfl rfl rfl

theorem answersInv_copSend {s : State} (h : Inv s) {q : CopReq} : AnswersInv (copSend s q) :=
  answersInv_gated h (answersInv_next (inv_retire (inv_withCop h (q :: s.cop)) (by decide)))

theorem answersInv_copCall {s : State} (h : Inv s) {rd : Reg} {q : CopReq} : AnswersInv (copCall s rd q) :=
  answersInv_gated h (answersInv_writeTo (inv_withCop h (q :: s.cop)) (by decide))

/-! ## Zcmp -/

/-- Whatever state the run of the stack accesses holds has the invariant. -/
def StackRun.HoldsInv : StackRun → Prop
  | .done t => Inv t
  | .exc _ t => Inv t
  | .fault _ => True
  | .refused _ => True

theorem inv_keepStore {kept : State} (h : Inv kept) (tick k : Nat) (a v : Word) : Inv (keepStore kept tick k a v) := by
  unfold keepStore
  split
  · split
    · rename_i t ht
      exact inv_of_storeMem h ht
    · exact h
  · exact h

theorem inv_keepLoad {kept : State} (h : Inv kept) (cur : State) (k : Nat) (r : Reg) (v : Word) :
    Inv (keepLoad kept cur k r v) := by
  have hasked : Inv { kept with devices := cur.devices } := h.congr rfl rfl rfl rfl rfl
  unfold keepLoad
  split
  · exact inv_setX hasked r v
  · exact hasked

theorem holdsInv_pushRun (src : State) (l : List Reg) (a : Word) (k : Nat) {kept cur : State} (hkept : Inv kept)
    (hcur : Inv cur) : (pushRun src l a k kept cur).HoldsInv := by
  induction l generalizing a k kept cur with
  | nil => exact hcur
  | cons r l ih =>
    rw [pushRun]
    split
    · rename_i t ht
      exact ih _ _ (inv_keepStore hkept ..) (inv_of_storeMem hcur ht)
    · exact hkept
    · trivial
    · trivial

theorem holdsInv_popRun (l : List Reg) (a : Word) (k : Nat) {kept cur : State} (hkept : Inv kept) (hcur : Inv cur) :
    (popRun l a k kept cur).HoldsInv := by
  induction l generalizing a k kept cur with
  | nil => exact hcur
  | cons r l ih =>
    rw [popRun]
    split
    · rename_i v t ht
      exact ih _ _ (inv_keepLoad hkept ..) (inv_setX (inv_of_loadMem hcur ht) ..)
    · exact hkept
    · trivial
    · trivial

theorem answersInv_stackElim {r : StackRun} {k : State → Out} (hr : r.HoldsInv) (hk : ∀ t, Inv t → AnswersInv (k t)) :
    AnswersInv (r.elim k) := by
  cases r with
  | done t => exact hk t hr
  | exc code kept => exact inv_raise hr code
  | fault f => trivial
  | refused r => trivial

theorem answersInv_stackGuard {s : State} (h : Inv s) {code : Nat} {a : Word} {n : Nat} {k : Out} (hk : AnswersInv k) :
    AnswersInv (stackGuard s code a n k) :=
  answersInv_ite (inv_raise h code) (answersInv_ite trivial hk)

theorem answersInv_popThen {s : State} (h : Inv s) {l : RegList} {spimm : BitVec 2} {k : State → Out}
    (hk : ∀ t, Inv t → AnswersInv (k t)) : AnswersInv (popThen s l spimm k) :=
  answersInv_stackGuard h (answersInv_stackElim (holdsInv_popRun _ _ _ h h) fun _ ht => hk _ (inv_setX ht ..))

theorem answersInv_cmPush {s : State} (h : Inv s) (l : RegList) (spimm : BitVec 2) : AnswersInv (execCmPush l spimm s) :=
  answersInv_stackGuard h
    (answersInv_stackElim (holdsInv_pushRun s _ _ _ h h) fun _ ht => inv_retire (inv_setX ht ..) (by decide))

theorem answersInv_cmPop {s : State} (h : Inv s) (l : RegList) (spimm : BitVec 2) : AnswersInv (execCmPop l spimm s) :=
  answersInv_popThen h fun _ ht => answersInv_next (inv_retire ht (by decide))

theorem answersInv_cmPopret {s : State} (h : Inv s) (l : RegList) (spimm : BitVec 2) :
    AnswersInv (execCmPopret l spimm s) :=
  answersInv_popThen h fun _ ht => answersInv_next (inv_retireTo ht (clearBit0_even _))

theorem answersInv_cmPopretz {s : State} (h : Inv s) (l : RegList) (spimm : BitVec 2) :
    AnswersInv (execCmPopretz l spimm s) :=
  answersInv_popThen h fun _ ht => answersInv_next (inv_retireTo (inv_setX ht 10 0) (clearBit0_even _))

/-! ## Every instruction -/

theorem answersInv_exec {s : State} (h : Inv s) (i : Instr) : AnswersInv (exec i s) := by
  cases i
  case add | addi | and | andi | auipc | lui | or | ori | sll | slli | slt | slti | sltiu | sltu | sra | srai | srl | srli |
      sub | xor | xori | cAdd | cAddi | cAddi4spn | cAddi16sp | cAnd | cAndi | cLi | cLui | cMv | cOr | cSlli | cSrai |
      cSrli | cSub | cXor | cZextB | cNot => exact answersInv_writeTo h (by decide)
  case mul | mulh | mulhsu | mulhu | sh1add | sh2add | sh3add | andn | orn | xnor | clz | ctz | cpop | max | maxu | min |
      minu | sextB | sextH | zextH | rol | ror | rori | orcB | rev8 | bclr | bclri | bext | bexti | binv | binvi | bset |
      bseti | cSextB | cZextH | cSextH | cMul => exact answersInv_gated_writeTo h (by decide)
  case beq | bge | bgeu | blt | bltu | bne | cBeqz | cBnez =>
    exact answersInv_branchTo h (by decide) (signExtend_append_even _)
  case jal | cJal => exact answersInv_jumpLink h (add_even h.pcEven (signExtend_append_even _))
  case jalr | cJalr => exact answersInv_jumpLink h (clearBit0_even _)
  case lb | lbu | lh | lhu | lw | cLw | cLwsp | cLbu | cLhu | cLh => exact answersInv_loadTo h (by decide)
  case sb | sh | sw | cSw | cSwsp | cSb | cSh => exact answersInv_storeFrom h (by decide)
  case csrrw rd rs1 n | csrrs rd rs1 n | csrrc rd rs1 n =>
    exact answersInv_csr (rd := rd) (rs1 := rs1) (imm := 0) (n := n) h (by simp)
  case csrrwi rd imm n | csrrsi rd imm n | csrrci rd imm n =>
    exact answersInv_csr (rd := rd) (rs1 := 0) (imm := imm) (n := n) h (by simp)
  case cpx0 | cpx1 | cpx4 | cpx5 => exact answersInv_copSend h
  case cpx2 | cpx3 | cpx6 | cpx9 => exact answersInv_copCall h
  case fence | cNop => exact inv_retire h (by decide)
  case fenceI => exact inv_retire (s := { s with stale := [] }) (h.congr rfl rfl rfl rfl rfl) (by decide)
  case wfi =>
    have hretired : Inv (s.retire 4) := inv_retire h (by decide)
    exact hretired.congr rfl rfl rfl rfl rfl
  case ecall => exact inv_enterException h 11
  case ebreak | cEbreak => exact inv_breakpointInstruction h
  case mret => exact inv_retireTo (inv_returnFromTrap h) h.mepcEven
  case cJ => exact inv_retireTo h (add_even h.pcEven (signExtend_append_even _))
  case cJr => exact inv_retireTo h (clearBit0_even _)
  case cmPush => exact answersInv_cmPush h ..
  case cmPop => exact answersInv_cmPop h ..
  case cmPopretz => exact answersInv_cmPopretz h ..
  case cmPopret => exact answersInv_cmPopret h ..
  case cmMvsa01 | cmMva01s => exact inv_retire (inv_setX (inv_setX h ..) ..) (by decide)
  case cmJt => exact answersInv_elim h fun _ _ => inv_retireTo h (clearBit0_even _)
  case cmJalt => exact answersInv_elim h fun _ _ => answersInv_jumpLink h (clearBit0_even _)

theorem answersInv_execReject {s : State} (h : Inv s) (e : Reject) : AnswersInv (execReject s e) := by
  cases ht : execReject s e with
  | next t => exact execReject_next ht ▸ inv_raise h 2
  | fault f => trivial
  | refused r => trivial

theorem answersInv_runInstr {s : State} (h : Inv s) : AnswersInv (runInstr s) :=
  answersInv_elim h fun d _ => by
    cases d with
    | ok i => exact answersInv_exec h i
    | error e => exact answersInv_execReject h e

/-! ## The debugger (60_exceptions.md R465 to R470) -/

/-- Whatever state an instruction the debugger supplied leaves has the invariant. -/
def DebugRun.HoldsInv : DebugRun → Prop
  | .ran t => Inv t
  | .ended t => Inv t
  | .fault _ => True
  | .refused _ => True

theorem inv_debugWriteCsr {s : State} (h : Inv s) (c : CsrName) (v : Word) : Inv (debugWriteCsr s c v) := by
  unfold debugWriteCsr
  split
  case h_4 => exact inv_csrWrite h ..
  all_goals
    split
    · exact inv_csrWrite h ..
    · exact h

theorem answersInv_debugWriteMem {s : State} (h : Inv s) (w : Width) (a v : Word) : AnswersInv (debugWriteMem s w a v) := by
  unfold debugWriteMem
  split
  · exact h
  · rename_i haligned
    split
    · split
      · rename_i t ht
        exact inv_of_tcipWrite h ht
      · exact h
      · trivial
      · trivial
    · split
      · exact inv_storeMain h (by simpa using haligned) v
      · exact inv_storeDevice h w _ v
      · exact h

theorem inv_debugReadMem {s : State} (h : Inv s) (w : Width) (a : Word) : Inv (debugReadMem s w a) := by
  unfold debugReadMem
  split
  · exact h.congr rfl rfl rfl rfl rfl
  · exact h

/-- An instruction that traps keeps the CSRs, the debug unit and the pc the hart was halted with. -/
theorem holdsInv_debugExec {s : State} (h : Inv s) (i : Instr) : (debugExec s i).HoldsInv := by
  have hexec := answersInv_exec h i
  unfold debugExec
  split
  · exact h
  · split
    · trivial
    · split
      · rename_i t ht
        rw [ht] at hexec
        have hexec : Inv t := hexec
        split
        · exact (inv_iff _).mpr ⟨hexec.mem, h.pc, h.csr, hexec.sources, h.dbg⟩
        · exact hexec.withPc h.pc rfl rfl rfl rfl
      · trivial
      · trivial

theorem answersInv_debugReject {s : State} (h : Inv s) (e : Reject) : AnswersInv (debugReject s e) := by
  unfold debugReject
  split
  case h_1 => trivial
  all_goals
    split
    · exact h
    · trivial
    · trivial

/-- By induction on the number of instructions the supplied bytes may still hold. -/
theorem answersInv_debugRun (n : Nat) {s : State} (h : Inv s) (l : List Byte) : AnswersInv (debugRun n s l) := by
  induction n generalizing s l with
  | zero => exact h
  | succ n ih =>
    unfold debugRun
    split
    · exact h
    · split
      · exact answersInv_debugReject h _
      · rename_i i _
        have hrun := holdsInv_debugExec h i
        split
        · rename_i t ht
          rw [ht] at hrun
          exact ih hrun _
        · rename_i t ht
          rw [ht] at hrun
          exact hrun
        · trivial
        · trivial

theorem answersInv_debugCommand {s : State} (h : Inv s) (c : DebugCommand) : AnswersInv (debugCommand s c) := by
  cases c with
  | writeGpr r v => exact inv_setX h r v
  | writeCsr c v => exact inv_debugWriteCsr h c v
  | writeMem w a v => exact answersInv_debugWriteMem h w a v
  | readMem w a => exact inv_debugReadMem h w a
  | progbuf w0 w1 => exact answersInv_debugRun 4 h _
  | itr w => exact answersInv_debugRun 1 h _
  | resume => exact inv_leaveDebug h

/-! ## Interrupts -/

theorem inv_interruptEntry {s : State} (h : Inv s) (id : Nat) : Inv (interruptEntry s id) := by
  refine (inv_iff _).mpr ⟨?_, ?_, ⟨heldAddress_normPc (clearBit0_even _), ?_⟩, ?_, debugLegal_saveMte h.dbg⟩
  · rw [interruptEntry_mem]
    exact h.mem
  · rw [interruptEntry_pc]
    exact h.pc
  · simpa [interruptEntry] using h.lpmd
  · rw [interruptEntry_clic]
    exact h.sources

theorem inv_setMinhv {s : State} (h : Inv s) (b : Bool) : Inv (setMinhv s b) :=
  (inv_iff _).mpr ⟨h.mem, h.pc, h.csr, h.sources, h.dbg⟩

/-- Clearing the latch of an edge source keeps its mode (R425). -/
theorem inv_acknowledge {s : State} (h : Inv s) {id : Nat} (hid : id < 128) : Inv (acknowledge s id) := by
  unfold acknowledge
  split
  · rename_i hedge
    have hlegal := (clicLegal_iff s).mp h.sources id hid
    have hacknowledged : ClicSource.legal id { sourceOf s id with latch := false } :=
      ⟨fun hlevel => ⟨rfl, (hlegal.1 hlevel).2⟩, hlegal.2⟩
    exact (inv_iff _).mpr ⟨h.mem, h.pc, h.csr, clicLegal_setSource h.sources hacknowledged, h.dbg⟩
  · exact h

/-- The entry address is even, that of an odd table word too (R424). -/
theorem vectorTarget_even (s : State) (v : Word) : (vectorTarget s v).getLsbD 0 = false := by
  unfold vectorTarget
  split
  · exact clearBit0_even _
  · rename_i hv
    simpa using hv

theorem answersInv_takeInterrupt {s : State} (h : Inv s) {id : Nat} (hid : id < 128) : AnswersInv (takeInterrupt s id) := by
  have hentry := inv_interruptEntry h id
  simp only [takeInterrupt]
  split
  · split
    · rename_i v u hu
      have hread : Inv u := inv_of_loadVector (inv_setMinhv hentry true) hu
      have hacknowledged := inv_acknowledge (inv_setMinhv hread false) hid
      exact hacknowledged.withPc (heldAddress_normPc (vectorTarget_even s v)) rfl rfl rfl rfl
    · trivial
    · trivial
    · trivial
  · exact hentry.withPc (heldAddress_normPc (append_base_even _)) rfl rfl rfl rfl

/-! ## Resets -/

theorem legalTrigger_resetTrigger (k : TriggerKind) : legalTrigger (resetTrigger k) := by
  cases k <;> simp [legalTrigger, resetTrigger]

/-- The reset pc of a legal build is word-aligned and lies below 2^21 (20_memory.md R104). -/
theorem heldAddress_resetAddr {c : Config} (h : c.wf = true) : HeldAddress (c.resetAddr.setWidth 32) := by
  have haligned : c.resetAddr.toNat % 4 = 0 := by
    simp only [Config.wf, Bool.and_eq_true, beq_iff_eq] at h
    obtain ⟨⟨⟨⟨⟨_, haligned⟩, _⟩, _⟩, _⟩, _⟩ := h
    exact haligned
  have htoNat : (c.resetAddr.setWidth 32).toNat = c.resetAddr.toNat := BitVec.toNat_setWidth_of_le (by decide)
  refine ⟨?_, normPc_low ?_⟩
  · rw [BitVec.getLsbD, htoNat, Nat.testBit_zero]
    simp only [decide_eq_false_iff_not]
    omega
  · rw [LowPc, htoNat]
    exact c.resetAddr.isLt

theorem clicLegal_reset (c : Config) : ClicLegal (State.resetWith c).clic :=
  (clicLegal_iff _).mpr fun id _ => by
    rw [sourceOf_of_replicate rfl]
    exact ⟨fun _ => ⟨rfl, rfl⟩, fun _ => rfl⟩

/-- The triggers of a build after reset, whichever of them is selected. -/
theorem debugLegal_reset {d : DebugUnit} {l : List TriggerKind} (htriggers : d.triggers = l.map resetTrigger)
    (htselect : l ≠ [] → d.tselect < l.length) : DebugLegal d := by
  refine ⟨fun t ht => ?_, fun hne => ?_⟩
  · rw [htriggers] at ht
    obtain ⟨k, _, rfl⟩ := List.mem_map.mp ht
    exact legalTrigger_resetTrigger k
  · rw [htriggers, List.length_map]
    exact htselect fun hl => hne (by rw [htriggers, hl, List.map_nil])

theorem inv_resetWith {c : Config} (h : c.wf = true) : Inv (State.resetWith c) :=
  (inv_iff _).mpr ⟨reset_mem_wf, heldAddress_resetAddr h, ⟨heldAddress_zero, .inl rfl⟩, clicLegal_reset c,
    debugLegal_reset rfl List.length_pos_of_ne_nil⟩

theorem inv_resetCore {s : State} (h : s.cfg.wf = true) (hmem : Memory.wf s.mem) : Inv (resetCore s) :=
  (inv_iff _).mpr ⟨hmem, heldAddress_resetAddr h, ⟨heldAddress_normPc (clearBit0_even _), .inl rfl⟩, clicLegal_reset s.cfg,
    debugLegal_reset rfl fun hne => Nat.mod_lt _ (List.length_pos_of_ne_nil hne)⟩

theorem inv_platformReset {s : State} (h : s.cfg.wf = true) (hmem : Memory.wf s.mem) (r : PlatformReset) (halt : Bool) :
    Inv (platformReset s r halt) := by
  have hcore := inv_resetCore h hmem
  unfold platformReset
  cases r with
  | core =>
    dsimp only
    split
    · exact inv_enterDebug hcore 5 5
    · exact hcore
  | system cells =>
    have hsystem : Inv { resetCore s with mem := Memory.ofCells cells } :=
      (inv_iff _).mpr ⟨ofCells_wf cells, hcore.pc, hcore.csr, hcore.sources, hcore.dbg⟩
    dsimp only
    split
    · exact inv_enterDebug hsystem 5 5
    · exact hsystem

/-! ## The step -/

theorem inv_wake {s : State} (h : Inv s) : Inv (wake s) := h.congr rfl rfl rfl rfl rfl

theorem inv_stepDone {s : State} (h : Inv s) : Inv (stepDone s) := by
  unfold stepDone
  split
  · exact inv_enterDebug h 4 4
  · exact h

/-- The build of a step that answers a state is one the manual allows. -/
theorem wf_of_step {s t : State} (h : step s = .next t) : s.cfg.wf = true := by
  by_contra hwf
  rw [step_illegalBuild (Bool.eq_false_iff.mpr hwf)] at h
  cases h

/-- A debug request takes no interrupt. -/
theorem debugRequest_ne_interrupt {s : State} {r : Option DebugRequest} {id : Nat} :
    debugRequest s r ≠ some (.interrupt id) := by
  intro h
  unfold debugRequest at h
  split at h
  · cases h
  · split at h
    · cases h
    · cases h
    · cases h
    · split at h <;> cases h
    · split at h <;> cases h

/-- An interrupt is taken only where it has won the arbitration (60_exceptions.md R421). -/
theorem winner_of_boundary {s : State} {i : StepInput} {id : Nat} (h : boundary s i = .interrupt id) :
    winner s = some id := by
  have hinterrupt : interruptBoundary s = .interrupt id := by
    unfold boundary at h
    split at h
    · cases h
    · split at h
      · cases h
      · unfold hartBoundary at h
        split at h
        · split at h <;> cases h
        · split at h
          · rename_i b hb
            exact absurd (h ▸ hb) debugRequest_ne_interrupt
          · split at h
            · cases h
            · split at h
              · cases h
              · exact h
  unfold interruptBoundary at hinterrupt
  split at hinterrupt
  · rename_i k hk
    split at hinterrupt
    · cases hinterrupt
    · cases hinterrupt
      split at hk
      · exact hk
      · cases hk
  · rcases triggerBoundary_cases s with ht | ⟨_, ht⟩ | ht <;> rw [ht] at hinterrupt <;> cases hinterrupt

/-- Settles O54: the sampling of the inputs keeps the invariant, and so does whatever the boundary decides. -/
theorem everyStepKeepsTheInvariant : Obligations.EveryStepKeepsTheInvariant := by
  intro s t h hstep
  have hsampled := inv_sample h (nextInput s)
  have hwf : (sample s (nextInput s)).cfg.wf = true := by
    rw [sample_cfg]
    exact wf_of_step hstep
  have answered : ∀ {o : Out}, AnswersInv o → o = .next t → Inv t := fun ho e => by
    rw [e] at ho
    exact ho
  rcases step_cases hstep with ⟨_, v, hv, rfl⟩ | ⟨_, rfl⟩ | ⟨c, _, hc⟩ | ⟨c, k, _, rfl⟩ | ⟨id, hid, ht⟩ | ⟨_, rfl⟩ |
    ⟨r, b, _, rfl⟩
  · have hrun := answersInv_runInstr (inv_wake hsampled)
    rw [hv] at hrun
    exact inv_stepDone hrun
  · exact hsampled
  · exact answered (answersInv_debugCommand hsampled c) hc
  · exact inv_enterDebug hsampled c k
  · obtain ⟨hlt, _⟩ := highest_eq_some_iff.mp (winner_of_boundary hid)
    exact answered (answersInv_takeInterrupt hsampled hlt) ht
  · exact inv_raise (inv_wake hsampled) 3
  · exact inv_platformReset hwf hsampled.mem r b

/-- Settles O55: the build of the reset state is legal, and the reset state of a legal build has the invariant. -/
theorem resetHasTheInvariant : Obligations.ResetHasTheInvariant := inv_resetWith (by decide)

end Sys2Proof.Machine
end

section
/-!
The decoder and the encoder are inverse to each other (30_encoding.md sections 1 to 4): for each format the fields of what
the encoder writes and the value its fields make up, and with them every instruction, read after writing and written after
reading.
-/

namespace Sys2Proof

open Machine

/-! ## What it is to be the encoding of an instruction -/

/-- The well-formed instruction whose encoding has the value `w`. -/
def Encodes (i : Instr) (w : Nat) : Prop := i.wf = true ∧ encode i = w

theorem Encodes.of_eq {i : Instr} {v w : Nat} (h : Encodes i v) (e : v = w) : Encodes i w := e ▸ h

/-- An instruction whose encoding the 32-bit decoder reads back (30_encoding.md R141). -/
theorem decode_encodeBytes_wide {i : Instr} {op : Nat} (hop : WideOpcode op) (hlt : encode i < 2 ^ 32)
    (h0 : field (encode i) 0 7 = op) (h : decode32 (encode i) = .ok i) : decode (encodeBytes i) = .ok i := by
  have h3 := mod_four_of_opcode hop h0
  rw [encodeBytes, Instr.length, if_pos h3, decode_leBytes_wide hlt h3 (mod_thirtyTwo_of_opcode hop h0), h]

/-- An instruction whose encoding the 16-bit decoder reads back. -/
theorem decode_encodeBytes_narrow {i : Instr} {q : Nat} (hq : q < 3) (hlt : encode i < 2 ^ 16)
    (h0 : field (encode i) 0 2 = q) (h : decode16 (encode i) = .ok i) : decode (encodeBytes i) = .ok i := by
  have h3 : encode i % 4 ≠ 3 := by
    simp only [field] at h0
    omega
  rw [encodeBytes, Instr.length, if_neg h3, decode_leBytes_narrow hlt h3, h]

/-- A register field that is accepted names a register (R161). -/
theorem withReg_ok {n : Nat} {k : Reg → Except Reject Instr} {i : Instr} (h : withReg n k = .ok i) :
    ∃ r : Reg, n = r.val ∧ k r = .ok i := by
  unfold withReg at h
  split at h
  · exact ⟨_, rfl, h⟩
  · cases h

/-- An immediate made of a field reads as that field. -/
theorem toNat_ofNat_of_lt {n k : Nat} (h : k < 2 ^ n) : (BitVec.ofNat n k).toNat = k := by
  rw [BitVec.toNat_ofNat, Nat.mod_eq_of_lt h]

theorem ofNat_of_eq_toNat {n k : Nat} {x : BitVec n} (h : k = x.toNat) : BitVec.ofNat n k = x := by
  rw [h, BitVec.ofNat_toNat, BitVec.setWidth_eq]

/-! ## R format (R143) -/

theorem fields_encR {f7 f3 op : Nat} (h7 : f7 < 2 ^ 7) (h3 : f3 < 2 ^ 3) (hop : op < 2 ^ 7) (rd rs1 rs2 : Reg) :
    encR f7 f3 op rd rs1 rs2 < 2 ^ 32 ∧ field (encR f7 f3 op rd rs1 rs2) 0 7 = op ∧
      field (encR f7 f3 op rd rs1 rs2) 12 3 = f3 ∧ field (encR f7 f3 op rd rs1 rs2) 25 7 = f7 ∧
      field (encR f7 f3 op rd rs1 rs2) 7 5 = rd.val ∧ field (encR f7 f3 op rd rs1 rs2) 15 5 = rs1.val ∧
      field (encR f7 f3 op rd rs1 rs2) 20 5 = rs2.val := by
  simp only [encR, field]
  omega

theorem decode_encodeBytes_R {f7 f3 op : Nat} {k : Reg → Reg → Reg → Instr} {rd rs1 rs2 : Reg}
    (hi : encode (k rd rs1 rs2) = encR f7 f3 op rd rs1 rs2) (hop : WideOpcode op) (h7 : f7 < 2 ^ 7) (h3 : f3 < 2 ^ 3)
    (hk : ReadsR f7 f3 op k) : decode (encodeBytes (k rd rs1 rs2)) = .ok (k rd rs1 rs2) := by
  obtain ⟨hlt, f0, f12, f25, f7', f15, f20⟩ := fields_encR h7 h3 hop.1 rd rs1 rs2
  rw [← hi] at hlt f0 f12 f25 f7' f15 f20
  refine decode_encodeBytes_wide hop hlt f0 ?_
  rw [hk _ f0 f12 f25, decR, f7', f15, f20, withReg_val, withReg_val, withReg_val]

theorem encodes_of_decR {w f7 f3 op : Nat} {k : Reg → Reg → Reg → Instr} {i : Instr} (h : decR w k = .ok i)
    (hw : w < 2 ^ 32) (h0 : field w 0 7 = op) (h12 : field w 12 3 = f3) (h25 : field w 25 7 = f7)
    (hk : ∀ rd rs1 rs2, Encodes (k rd rs1 rs2) (encR f7 f3 op rd rs1 rs2)) : Encodes i w := by
  obtain ⟨rd, hrd, h⟩ := withReg_ok h
  obtain ⟨rs1, hrs1, h⟩ := withReg_ok h
  obtain ⟨rs2, hrs2, h⟩ := withReg_ok h
  cases h
  have sum : encR f7 f3 op rd rs1 rs2 = w := by
    rw [← h0, ← h12, ← h25, encR, ← hrd, ← hrs1, ← hrs2]
    simp only [field]
    omega
  exact (hk rd rs1 rs2).of_eq sum

/-! ## The two-register form (R277), I format (R144) and shift-immediate form (R145) -/

theorem fields_encR2 {top f3 op : Nat} (htop : top < 2 ^ 12) (h3 : f3 < 2 ^ 3) (hop : op < 2 ^ 7) (rd rs1 : Reg) :
    encR2 top f3 op rd rs1 < 2 ^ 32 ∧ field (encR2 top f3 op rd rs1) 0 7 = op ∧
      field (encR2 top f3 op rd rs1) 12 3 = f3 ∧ field (encR2 top f3 op rd rs1) 20 12 = top ∧
      field (encR2 top f3 op rd rs1) 25 7 = top / 2 ^ 5 ∧ field (encR2 top f3 op rd rs1) 20 5 = top % 2 ^ 5 ∧
      field (encR2 top f3 op rd rs1) 7 5 = rd.val ∧ field (encR2 top f3 op rd rs1) 15 5 = rs1.val := by
  simp only [encR2, field]
  omega

theorem encR2_of_fields {w : Nat} (hw : w < 2 ^ 32) {rd rs1 : Reg} (hrd : field w 7 5 = rd.val)
    (hrs1 : field w 15 5 = rs1.val) : encR2 (field w 20 12) (field w 12 3) (field w 0 7) rd rs1 = w := by
  rw [encR2, ← hrd, ← hrs1]
  simp only [field]
  omega

/-- The bits [31:20] of a word are its funct7 above the field of rs2. -/
theorem top_of_fields {w f7 f5 : Nat} (h25 : field w 25 7 = f7) (h20 : field w 20 5 = f5) :
    field w 20 12 = f7 * 2 ^ 5 + f5 := by
  rw [← h25, ← h20]
  simp only [field]
  omega

/-- Words of this opcode, funct3 and bits [31:20] are read as the two-register form (42_b_extension.md R277). -/
def ReadsR2 (top f3 op : Nat) (k : Reg → Reg → Instr) : Prop :=
  ∀ w, field w 0 7 = op → field w 12 3 = f3 → field w 25 7 = top / 2 ^ 5 → field w 20 5 = top % 2 ^ 5 →
    decode32 w = decR2 w k

theorem decode_encodeBytes_R2 {top f3 op : Nat} {k : Reg → Reg → Instr} {rd rs1 : Reg}
    (hi : encode (k rd rs1) = encR2 top f3 op rd rs1) (hop : WideOpcode op) (htop : top < 2 ^ 12) (h3 : f3 < 2 ^ 3)
    (hk : ReadsR2 top f3 op k) : decode (encodeBytes (k rd rs1)) = .ok (k rd rs1) := by
  obtain ⟨hlt, f0, f12, _, f25, f20, f7, f15⟩ := fields_encR2 htop h3 hop.1 rd rs1
  rw [← hi] at hlt f0 f12 f25 f20 f7 f15
  refine decode_encodeBytes_wide hop hlt f0 ?_
  rw [hk _ f0 f12 f25 f20, decR2, f7, f15, withReg_val, withReg_val]

theorem encodes_of_decR2 {w f7 f5 top f3 op : Nat} {k : Reg → Reg → Instr} {i : Instr} (h : decR2 w k = .ok i)
    (hw : w < 2 ^ 32) (h0 : field w 0 7 = op) (h12 : field w 12 3 = f3) (h25 : field w 25 7 = f7) (h20 : field w 20 5 = f5)
    (htop : f7 * 2 ^ 5 + f5 = top) (hk : ∀ rd rs1, Encodes (k rd rs1) (encR2 top f3 op rd rs1)) : Encodes i w := by
  obtain ⟨rd, hrd, h⟩ := withReg_ok h
  obtain ⟨rs1, hrs1, h⟩ := withReg_ok h
  cases h
  have sum := encR2_of_fields hw hrd hrs1
  rw [top_of_fields h25 h20, htop, h12, h0] at sum
  exact (hk rd rs1).of_eq sum

theorem decode_encodeBytes_I {f3 op : Nat} {k : Reg → Reg → BitVec 12 → Instr} {rd rs1 : Reg} {imm : BitVec 12}
    (hi : encode (k rd rs1 imm) = encI f3 op rd rs1 imm) (hop : WideOpcode op) (h3 : f3 < 2 ^ 3) (hk : ReadsI f3 op k) :
    decode (encodeBytes (k rd rs1 imm)) = .ok (k rd rs1 imm) := by
  obtain ⟨hlt, f0, f12, f20, _, _, f7, f15⟩ := fields_encR2 imm.isLt h3 hop.1 rd rs1
  have hi : encode (k rd rs1 imm) = encR2 imm.toNat f3 op rd rs1 := hi
  rw [← hi] at hlt f0 f12 f20 f7 f15
  refine decode_encodeBytes_wide hop hlt f0 ?_
  rw [hk _ f0 f12, decI, f7, f15, f20, withReg_val, withReg_val, ofNat_of_eq_toNat rfl]

theorem encodes_of_decI {w f3 op : Nat} {k : Reg → Reg → BitVec 12 → Instr} {i : Instr} (h : decI w k = .ok i)
    (hw : w < 2 ^ 32) (h0 : field w 0 7 = op) (h12 : field w 12 3 = f3)
    (hk : ∀ rd rs1 imm, Encodes (k rd rs1 imm) (encI f3 op rd rs1 imm)) : Encodes i w := by
  obtain ⟨rd, hrd, h⟩ := withReg_ok h
  obtain ⟨rs1, hrs1, h⟩ := withReg_ok h
  cases h
  have sum : encI f3 op rd rs1 (BitVec.ofNat 12 (field w 20 12)) = w := by
    rw [encI, toNat_ofNat_of_lt (field_lt ..), ← h0, ← h12]
    exact encR2_of_fields hw hrd hrs1
  exact (hk rd rs1 _).of_eq sum

/-- The shift amount stands where the two-register form has its low top bits. -/
theorem encShift_eq_encR2 (f7 f3 : Nat) (rd rs1 : Reg) (shamt : BitVec 5) :
    encShift f7 f3 rd rs1 shamt = encR2 (f7 * 2 ^ 5 + shamt.toNat) f3 0x13 rd rs1 := by
  rw [encShift, encR2]
  omega

theorem decode_encodeBytes_shift {f7 f3 : Nat} {k : Reg → Reg → BitVec 5 → Instr} {rd rs1 : Reg} {shamt : BitVec 5}
    (hi : encode (k rd rs1 shamt) = encShift f7 f3 rd rs1 shamt) (h7 : f7 < 2 ^ 7) (h3 : f3 < 2 ^ 3)
    (hk : ReadsShift f7 f3 k) : decode (encodeBytes (k rd rs1 shamt)) = .ok (k rd rs1 shamt) := by
  obtain ⟨hlt, f0, f12, _, f25, f20, f7', f15⟩ :=
    fields_encR2 (top := f7 * 2 ^ 5 + shamt.toNat) (op := 0x13) (by omega) h3 (by decide) rd rs1
  have hi : encode (k rd rs1 shamt) = encR2 (f7 * 2 ^ 5 + shamt.toNat) f3 0x13 rd rs1 :=
    hi.trans (encShift_eq_encR2 ..)
  rw [← hi] at hlt f0 f12 f25 f20 f7' f15
  refine decode_encodeBytes_wide (by decide) hlt f0 ?_
  rw [hk _ f0 f12 (f25.trans (by omega)), decShift, f7', f15, withReg_val, withReg_val,
    ofNat_of_eq_toNat (x := shamt) (f20.trans (by omega))]

theorem encodes_of_decShift {w f7 f3 : Nat} {k : Reg → Reg → BitVec 5 → Instr} {i : Instr} (h : decShift w k = .ok i)
    (hw : w < 2 ^ 32) (h0 : field w 0 7 = 0x13) (h12 : field w 12 3 = f3) (h25 : field w 25 7 = f7)
    (hk : ∀ rd rs1 shamt, Encodes (k rd rs1 shamt) (encShift f7 f3 rd rs1 shamt)) : Encodes i w := by
  obtain ⟨rd, hrd, h⟩ := withReg_ok h
  obtain ⟨rs1, hrs1, h⟩ := withReg_ok h
  cases h
  have sum := encR2_of_fields hw hrd hrs1
  rw [top_of_fields h25 rfl, h12, h0] at sum
  have sum' : encShift f7 f3 rd rs1 (BitVec.ofNat 5 (field w 20 5)) = w := by
    rw [encShift_eq_encR2, toNat_ofNat_of_lt (field_lt ..), sum]
  exact (hk rd rs1 _).of_eq sum'

/-! ## S format (R146) and B format (R147) -/

/-- The pieces of a store's immediate make it up. -/
theorem storeFields_sum (imm : BitVec 12) : field imm.toNat 5 7 * 2 ^ 5 + field imm.toNat 0 5 = imm.toNat := by
  simp only [field]
  omega

theorem fields_encS {f3 : Nat} (h3 : f3 < 2 ^ 3) (rs2 rs1 : Reg) (imm : BitVec 12) :
    encS f3 rs2 rs1 imm < 2 ^ 32 ∧ field (encS f3 rs2 rs1 imm) 0 7 = 0x23 ∧ field (encS f3 rs2 rs1 imm) 12 3 = f3 ∧
      field (encS f3 rs2 rs1 imm) 20 5 = rs2.val ∧ field (encS f3 rs2 rs1 imm) 15 5 = rs1.val ∧
      field (encS f3 rs2 rs1 imm) 25 7 = field imm.toNat 5 7 ∧ field (encS f3 rs2 rs1 imm) 7 5 = field imm.toNat 0 5 := by
  have h5 := field_lt imm.toNat 5 7
  have h0 := field_lt imm.toNat 0 5
  simp only [encS]
  generalize field imm.toNat 5 7 = high, field imm.toNat 0 5 = low at *
  simp only [field]
  omega

/-- Words of this funct3 on opcode 0100011 are read as S format (R146). -/
def ReadsS (f3 : Nat) (k : Reg → Reg → BitVec 12 → Instr) : Prop :=
  ∀ w, field w 0 7 = 0b0100011 → field w 12 3 = f3 → decode32 w = decS w k

theorem decode_encodeBytes_S {f3 : Nat} {k : Reg → Reg → BitVec 12 → Instr} {rs2 rs1 : Reg} {imm : BitVec 12}
    (hi : encode (k rs2 rs1 imm) = encS f3 rs2 rs1 imm) (h3 : f3 < 2 ^ 3) (hk : ReadsS f3 k) :
    decode (encodeBytes (k rs2 rs1 imm)) = .ok (k rs2 rs1 imm) := by
  obtain ⟨hlt, f0, f12, f20, f15, f25, f7⟩ := fields_encS h3 rs2 rs1 imm
  rw [← hi] at hlt f0 f12 f20 f15 f25 f7
  refine decode_encodeBytes_wide (by decide) hlt f0 ?_
  rw [hk _ f0 f12, decS, f20, f15, f25, f7, withReg_val, withReg_val, ofNat_of_eq_toNat (storeFields_sum imm)]

theorem encodes_of_decS {w f3 : Nat} {k : Reg → Reg → BitVec 12 → Instr} {i : Instr} (h : decS w k = .ok i)
    (hw : w < 2 ^ 32) (h0 : field w 0 7 = 0x23) (h12 : field w 12 3 = f3)
    (hk : ∀ rs2 rs1 imm, Encodes (k rs2 rs1 imm) (encS f3 rs2 rs1 imm)) : Encodes i w := by
  obtain ⟨rs2, hrs2, h⟩ := withReg_ok h
  obtain ⟨rs1, hrs1, h⟩ := withReg_ok h
  cases h
  have hlt : field w 25 7 * 2 ^ 5 + field w 7 5 < 2 ^ 12 := by
    simp only [field]
    omega
  have sum : encS f3 rs2 rs1 (BitVec.ofNat 12 (field w 25 7 * 2 ^ 5 + field w 7 5)) = w := by
    rw [encS, toNat_ofNat_of_lt hlt, ← hrs2, ← hrs1, ← h12]
    simp only [field] at h0 ⊢
    omega
  exact (hk rs2 rs1 _).of_eq sum

/-- A branch's immediate made of its pieces has them as its fields. -/
theorem branchFields_of_sum {a b c d : Nat} (ha : a < 2 ^ 1) (hb : b < 2 ^ 1) (hc : c < 2 ^ 6) (hd : d < 2 ^ 4) :
    let n := (BitVec.ofNat 12 (a * 2 ^ 11 + b * 2 ^ 10 + c * 2 ^ 4 + d)).toNat
    field n 11 1 = a ∧ field n 10 1 = b ∧ field n 4 6 = c ∧ field n 0 4 = d := by
  rw [toNat_ofNat_of_lt (by omega)]
  simp only [field]
  omega

theorem fields_encB {f3 : Nat} (h3 : f3 < 2 ^ 3) (rs1 rs2 : Reg) (imm : BitVec 12) :
    encB f3 rs1 rs2 imm < 2 ^ 32 ∧ field (encB f3 rs1 rs2 imm) 0 7 = 0x63 ∧ field (encB f3 rs1 rs2 imm) 12 3 = f3 ∧
      field (encB f3 rs1 rs2 imm) 15 5 = rs1.val ∧ field (encB f3 rs1 rs2 imm) 20 5 = rs2.val ∧
      field (encB f3 rs1 rs2 imm) 31 1 = field imm.toNat 11 1 ∧ field (encB f3 rs1 rs2 imm) 7 1 = field imm.toNat 10 1 ∧
      field (encB f3 rs1 rs2 imm) 25 6 = field imm.toNat 4 6 ∧ field (encB f3 rs1 rs2 imm) 8 4 = field imm.toNat 0 4 := by
  have h11 := field_lt imm.toNat 11 1
  have h10 := field_lt imm.toNat 10 1
  have h4 := field_lt imm.toNat 4 6
  have h0 := field_lt imm.toNat 0 4
  simp only [encB]
  generalize field imm.toNat 11 1 = b11, field imm.toNat 10 1 = b10, field imm.toNat 4 6 = b9, field imm.toNat 0 4 = b3
    at *
  simp only [field]
  omega

theorem decode_encodeBytes_B {f3 : Nat} {k : Reg → Reg → BitVec 12 → Instr} {rs1 rs2 : Reg} {imm : BitVec 12}
    (hi : encode (k rs1 rs2 imm) = encB f3 rs1 rs2 imm) (h3 : f3 < 2 ^ 3) (hk : ReadsB f3 k) :
    decode (encodeBytes (k rs1 rs2 imm)) = .ok (k rs1 rs2 imm) := by
  obtain ⟨hlt, f0, f12, f15, f20, f31, f7, f25, f8⟩ := fields_encB h3 rs1 rs2 imm
  rw [← hi] at hlt f0 f12 f15 f20 f31 f7 f25 f8
  refine decode_encodeBytes_wide (by decide) hlt f0 ?_
  rw [hk _ f0 f12, decB, f15, f20, f31, f7, f25, f8, withReg_val, withReg_val, ofNat_of_eq_toNat (branchFields_sum imm)]

theorem encodes_of_decB {w f3 : Nat} {k : Reg → Reg → BitVec 12 → Instr} {i : Instr} (h : decB w k = .ok i)
    (hw : w < 2 ^ 32) (h0 : field w 0 7 = 0x63) (h12 : field w 12 3 = f3)
    (hk : ∀ rs1 rs2 imm, Encodes (k rs1 rs2 imm) (encB f3 rs1 rs2 imm)) : Encodes i w := by
  obtain ⟨rs1, hrs1, h⟩ := withReg_ok h
  obtain ⟨rs2, hrs2, h⟩ := withReg_ok h
  cases h
  obtain ⟨h11, h10, h4, h0'⟩ :=
    branchFields_of_sum (field_lt w 31 1) (field_lt w 7 1) (field_lt w 25 6) (field_lt w 8 4)
  refine (hk rs1 rs2 _).of_eq ?_
  rw [encB, h11, h10, h4, h0', ← hrs1, ← hrs2, ← h12]
  simp only [field] at h0 ⊢
  omega

/-! ## U format (R148) and J format (R149) -/

theorem fields_encU {op : Nat} (hop : op < 2 ^ 7) (rd : Reg) (imm : BitVec 20) :
    encU op rd imm < 2 ^ 32 ∧ field (encU op rd imm) 0 7 = op ∧ field (encU op rd imm) 7 5 = rd.val ∧
      field (encU op rd imm) 12 20 = imm.toNat := by
  simp only [encU, field]
  omega

theorem decode_encodeBytes_U {op : Nat} {k : Reg → BitVec 20 → Instr} {rd : Reg} {imm : BitVec 20}
    (hi : encode (k rd imm) = encU op rd imm) (hop : WideOpcode op) (hk : ReadsU op k) :
    decode (encodeBytes (k rd imm)) = .ok (k rd imm) := by
  obtain ⟨hlt, f0, f7, f12⟩ := fields_encU hop.1 rd imm
  rw [← hi] at hlt f0 f7 f12
  refine decode_encodeBytes_wide hop hlt f0 ?_
  rw [hk _ f0, decU, f7, f12, withReg_val, ofNat_of_eq_toNat rfl]

theorem encodes_of_decU {w op : Nat} {k : Reg → BitVec 20 → Instr} {i : Instr} (h : decU w k = .ok i) (hw : w < 2 ^ 32)
    (h0 : field w 0 7 = op) (hk : ∀ rd imm, Encodes (k rd imm) (encU op rd imm)) : Encodes i w := by
  obtain ⟨rd, hrd, h⟩ := withReg_ok h
  cases h
  have sum : encU op rd (BitVec.ofNat 20 (field w 12 20)) = w := by
    rw [encU, toNat_ofNat_of_lt (field_lt ..), ← hrd, ← h0]
    simp only [field]
    omega
  exact (hk rd _).of_eq sum

/-- A jump's immediate made of its pieces has them as its fields. -/
theorem jumpFields_of_sum {a b c d : Nat} (ha : a < 2 ^ 1) (hb : b < 2 ^ 8) (hc : c < 2 ^ 1) (hd : d < 2 ^ 10) :
    let n := (BitVec.ofNat 20 (a * 2 ^ 19 + b * 2 ^ 11 + c * 2 ^ 10 + d)).toNat
    field n 19 1 = a ∧ field n 11 8 = b ∧ field n 10 1 = c ∧ field n 0 10 = d := by
  rw [toNat_ofNat_of_lt (by omega)]
  simp only [field]
  omega

theorem fields_encJ (rd : Reg) (imm : BitVec 20) :
    encJ rd imm < 2 ^ 32 ∧ field (encJ rd imm) 0 7 = 0x6F ∧ field (encJ rd imm) 7 5 = rd.val ∧
      field (encJ rd imm) 31 1 = field imm.toNat 19 1 ∧ field (encJ rd imm) 12 8 = field imm.toNat 11 8 ∧
      field (encJ rd imm) 20 1 = field imm.toNat 10 1 ∧ field (encJ rd imm) 21 10 = field imm.toNat 0 10 := by
  have h19 := field_lt imm.toNat 19 1
  have h11 := field_lt imm.toNat 11 8
  have h10 := field_lt imm.toNat 10 1
  have h0 := field_lt imm.toNat 0 10
  simp only [encJ]
  generalize field imm.toNat 19 1 = b19, field imm.toNat 11 8 = b18, field imm.toNat 10 1 = b10, field imm.toNat 0 10 = b9
    at *
  simp only [field]
  omega

theorem decode_encodeBytes_jal (rd : Reg) (imm : BitVec 20) : decode (encodeBytes (.jal rd imm)) = .ok (.jal rd imm) := by
  obtain ⟨hlt, f0, f7, f31, f12, f20, f21⟩ := fields_encJ rd imm
  refine decode_encodeBytes_wide (i := .jal rd imm) (by decide) hlt f0 ?_
  simp only [encode, decode32, f0]
  rw [decJ, f7, f31, f12, f20, f21, withReg_val, ofNat_of_eq_toNat (jumpFields_sum imm)]

theorem encodes_of_decJ {w : Nat} {i : Instr} (h : decJ w .jal = .ok i) (hw : w < 2 ^ 32) (h0 : field w 0 7 = 0x6F) :
    Encodes i w := by
  obtain ⟨rd, hrd, h⟩ := withReg_ok h
  cases h
  obtain ⟨h19, h11, h10, h0'⟩ :=
    jumpFields_of_sum (field_lt w 31 1) (field_lt w 12 8) (field_lt w 20 1) (field_lt w 21 10)
  refine ⟨rfl, ?_⟩
  rw [encode, encJ, h19, h11, h10, h0', ← hrd]
  simp only [field] at h0 ⊢
  omega

/-! ## The CSR format with an immediate (R150) -/

theorem fields_encCsrImm {f3 : Nat} (h3 : f3 < 2 ^ 3) (rd : Reg) (imm : BitVec 5) (csr : BitVec 12) :
    encCsrImm f3 rd imm csr < 2 ^ 32 ∧ field (encCsrImm f3 rd imm csr) 0 7 = 0x73 ∧
      field (encCsrImm f3 rd imm csr) 12 3 = f3 ∧ field (encCsrImm f3 rd imm csr) 7 5 = rd.val ∧
      field (encCsrImm f3 rd imm csr) 15 5 = imm.toNat ∧ field (encCsrImm f3 rd imm csr) 20 12 = csr.toNat := by
  simp only [encCsrImm, field]
  omega

theorem decode_encodeBytes_csrImm {f3 : Nat} {k : Reg → BitVec 5 → BitVec 12 → Instr} {rd : Reg} {imm : BitVec 5}
    {csr : BitVec 12} (hi : encode (k rd imm csr) = encCsrImm f3 rd imm csr) (h3 : f3 < 2 ^ 3) (hk : ReadsCsrImm f3 k) :
    decode (encodeBytes (k rd imm csr)) = .ok (k rd imm csr) := by
  obtain ⟨hlt, f0, f12, f7, f15, f20⟩ := fields_encCsrImm h3 rd imm csr
  rw [← hi] at hlt f0 f12 f7 f15 f20
  refine decode_encodeBytes_wide (by decide) hlt f0 ?_
  rw [hk _ f0 f12, decCsrImm, f7, f15, f20, withReg_val, ofNat_of_eq_toNat rfl, ofNat_of_eq_toNat rfl]

theorem encodes_of_decCsrImm {w f3 : Nat} {k : Reg → BitVec 5 → BitVec 12 → Instr} {i : Instr}
    (h : decCsrImm w k = .ok i) (hw : w < 2 ^ 32) (h0 : field w 0 7 = 0x73) (h12 : field w 12 3 = f3)
    (hk : ∀ rd imm csr, Encodes (k rd imm csr) (encCsrImm f3 rd imm csr)) : Encodes i w := by
  obtain ⟨rd, hrd, h⟩ := withReg_ok h
  cases h
  have sum : encCsrImm f3 rd (BitVec.ofNat 5 (field w 15 5)) (BitVec.ofNat 12 (field w 20 12)) = w := by
    rw [encCsrImm, toNat_ofNat_of_lt (field_lt ..), toNat_ofNat_of_lt (field_lt ..), ← hrd, ← h12]
    simp only [field] at h0 ⊢
    omega
  exact (hk rd _ _).of_eq sum

/-! ## The cpx format (R153) -/

theorem fields_encCpx {func f3 low mid : Nat} (hfunc : func < 2 ^ 5) (h3 : f3 < 2 ^ 3) (hlow : low < 2 ^ 5)
    (hmid : mid < 2 ^ 5) (index : BitVec 2) (rs1 : Reg) :
    encCpx func f3 index low rs1 mid < 2 ^ 32 ∧ field (encCpx func f3 index low rs1 mid) 0 7 = 0x5B ∧
      field (encCpx func f3 index low rs1 mid) 12 3 = f3 ∧ field (encCpx func f3 index low rs1 mid) 25 5 = func ∧
      field (encCpx func f3 index low rs1 mid) 30 2 = index.toNat ∧ field (encCpx func f3 index low rs1 mid) 7 5 = low ∧
      field (encCpx func f3 index low rs1 mid) 15 5 = rs1.val ∧ field (encCpx func f3 index low rs1 mid) 20 5 = mid := by
  simp only [encCpx, field]
  omega

theorem encCpx_of_fields {w : Nat} (hw : w < 2 ^ 32) (h0 : field w 0 7 = 0x5B) {rs1 : Reg} (hrs1 : field w 15 5 = rs1.val) :
    encCpx (field w 25 5) (field w 12 3) (BitVec.ofNat 2 (field w 30 2)) (field w 7 5) rs1 (field w 20 5) = w := by
  rw [encCpx, toNat_ofNat_of_lt (field_lt ..), ← hrs1]
  simp only [field] at h0 ⊢
  omega

/-- A cpx word whose fields the decoder of custom-2 reads back. -/
theorem decode_encodeBytes_cpx {i : Instr} {func f3 low mid : Nat} {index : BitVec 2} {rs1 : Reg}
    (hi : encode i = encCpx func f3 index low rs1 mid)
    (hfit : func < 2 ^ 5 ∧ f3 < 2 ^ 3 ∧ low < 2 ^ 5 ∧ mid < 2 ^ 5)
    (hd : ∀ w, field w 12 3 = f3 → field w 25 5 = func → BitVec.ofNat 2 (field w 30 2) = index → field w 7 5 = low →
      field w 15 5 = rs1.val → field w 20 5 = mid → field w 20 10 = func * 2 ^ 5 + mid → decCustom2 w = .ok i) :
    decode (encodeBytes i) = .ok i := by
  obtain ⟨hfunc, h3, hlow, hmid⟩ := hfit
  obtain ⟨hlt, f0, f12, f25, f30, f7, f15, f20⟩ := fields_encCpx hfunc h3 hlow hmid index rs1
  rw [← hi] at hlt f0 f12 f25 f30 f7 f15 f20
  refine decode_encodeBytes_wide (by decide) hlt f0 ?_
  simp only [decode32, f0]
  refine hd _ f12 f25 (ofNat_of_eq_toNat f30) f7 f15 f20 ?_
  rw [← f25, ← f20]
  simp only [field]
  omega

/-- A cpx immediate made of its two pieces has them as its fields. -/
theorem cpxFields_of_sum {a b : Nat} (ha : a < 2 ^ 5) (hb : b < 2 ^ 5) :
    let n := (BitVec.ofNat 10 (a * 2 ^ 5 + b)).toNat
    field n 5 5 = a ∧ field n 0 5 = b := by
  rw [toNat_ofNat_of_lt (by omega)]
  simp only [field]
  omega

/-- A cpx instruction made of the fields of a word. -/
theorem encodes_cpx {i : Instr} {w func f3 low mid : Nat} {rs1 : Reg} (hw : w < 2 ^ 32) (h0 : field w 0 7 = 0x5B)
    (hwf : i.wf = true) (hi : encode i = encCpx func f3 (BitVec.ofNat 2 (field w 30 2)) low rs1 mid)
    (h12 : field w 12 3 = f3) (h25 : field w 25 5 = func) (h7 : field w 7 5 = low) (h15 : field w 15 5 = rs1.val)
    (h20 : field w 20 5 = mid) : Encodes i w := by
  refine ⟨hwf, ?_⟩
  rw [hi, ← h12, ← h25, ← h7, ← h20]
  exact encCpx_of_fields hw h0 h15

theorem encodes_of_decCustom2 {w : Nat} {i : Instr} (h : decCustom2 w = .ok i) (hw : w < 2 ^ 32)
    (h0 : field w 0 7 = 0x5B) : Encodes i w := by
  unfold decCustom2 at h
  dsimp only at h
  split at h
  case h_1 h12 h25 =>
    obtain ⟨rs1, h15, h⟩ := withReg_ok h
    cases h
    obtain ⟨h5, h0'⟩ := cpxFields_of_sum (field_lt w 20 5) (field_lt w 7 5)
    exact encodes_cpx hw h0 rfl rfl h12 h25 h0'.symm h15 h5.symm
  case h_2 h12 h25 =>
    obtain ⟨rs1, h15, h⟩ := withReg_ok h
    split at h
    · rename_i hzero
      cases h
      exact encodes_cpx hw h0 rfl rfl h12 h25 hzero.2 h15 hzero.1
    · cases h
  case h_3 h12 h25 =>
    obtain ⟨rd, h7, h⟩ := withReg_ok h
    obtain ⟨rs1, h15, h⟩ := withReg_ok h
    cases h
    exact encodes_cpx hw h0 rfl rfl h12 h25 h7 h15 (toNat_ofNat_of_lt (field_lt ..)).symm
  case h_4 h12 h25 =>
    obtain ⟨rd, h7, h⟩ := withReg_ok h
    obtain ⟨rs1, h15, h⟩ := withReg_ok h
    split at h
    · rename_i hzero
      cases h
      exact encodes_cpx hw h0 rfl rfl h12 h25 h7 h15 hzero
    · cases h
  case h_5 h12 h25 =>
    obtain ⟨rs1, h15, h⟩ := withReg_ok h
    obtain ⟨rs2, h20, h⟩ := withReg_ok h
    cases h
    exact encodes_cpx hw h0 rfl rfl h12 h25 (toNat_ofNat_of_lt (field_lt ..)).symm h15 h20
  case h_6 h12 h25 =>
    obtain ⟨rs1, h15, h⟩ := withReg_ok h
    obtain ⟨rs2, h20, h⟩ := withReg_ok h
    split at h
    · rename_i hzero
      cases h
      exact encodes_cpx hw h0 rfl rfl h12 h25 hzero h15 h20
    · cases h
  case h_7 h12 h25 =>
    obtain ⟨rd, h7, h⟩ := withReg_ok h
    obtain ⟨rs1, h15, h⟩ := withReg_ok h
    obtain ⟨rs2, h20, h⟩ := withReg_ok h
    cases h
    exact encodes_cpx hw h0 rfl rfl h12 h25 h7 h15 h20
  case h_8 h12 =>
    obtain ⟨rd, h7, h⟩ := withReg_ok h
    obtain ⟨rs1, h15, h⟩ := withReg_ok h
    cases h
    have top : field w 20 10 = field w 25 5 * 2 ^ 5 + field w 20 5 := by
      simp only [field]
      omega
    obtain ⟨h5, h0'⟩ := cpxFields_of_sum (field_lt w 25 5) (field_lt w 20 5)
    rw [← top] at h5 h0'
    exact encodes_cpx hw h0 rfl rfl h12 h5.symm h7 h15 h0'.symm
  case h_9 => cases h

/-! ## The 32-bit decoder writes back what it reads -/

section
variable {w : Nat} {i : Instr} (hw : w < 2 ^ 32)
include hw

theorem encodes_of_decOp (h : decOp w = .ok i) (h0 : field w 0 7 = 0x33) : Encodes i w := by
  unfold decOp at h
  split at h
  case h_25 =>
    split at h
    · exact encodes_of_decR2 h hw h0 (by assumption) (by assumption) (by assumption) (by rfl) fun _ _ => ⟨rfl, rfl⟩
    · cases h
  case h_32 => cases h
  all_goals exact encodes_of_decR h hw h0 (by assumption) (by assumption) fun _ _ _ => ⟨rfl, rfl⟩

theorem encodes_of_decShiftLeft (h : decShiftLeft w = .ok i) (h0 : field w 0 7 = 0x13) (h12 : field w 12 3 = 1) :
    Encodes i w := by
  unfold decShiftLeft at h
  split at h
  case h_2 h25 =>
    split at h
    case h_6 => cases h
    all_goals exact encodes_of_decR2 h hw h0 h12 h25 (by assumption) (by rfl) fun _ _ => ⟨rfl, rfl⟩
  case h_6 => cases h
  all_goals exact encodes_of_decShift h hw h0 h12 (by assumption) fun _ _ _ => ⟨rfl, rfl⟩

theorem encodes_of_decShiftRight (h : decShiftRight w = .ok i) (h0 : field w 0 7 = 0x13) (h12 : field w 12 3 = 5) :
    Encodes i w := by
  unfold decShiftRight at h
  split at h
  case h_5 | h_6 =>
    split at h
    · exact encodes_of_decR2 h hw h0 h12 (by assumption) (by assumption) (by rfl) fun _ _ => ⟨rfl, rfl⟩
    · cases h
  case h_7 => cases h
  all_goals exact encodes_of_decShift h hw h0 h12 (by assumption) fun _ _ _ => ⟨rfl, rfl⟩

theorem encodes_of_decOpImm (h : decOpImm w = .ok i) (h0 : field w 0 7 = 0x13) : Encodes i w := by
  unfold decOpImm at h
  split at h
  case h_2 h12 => exact encodes_of_decShiftLeft hw h h0 h12
  case h_6 h12 => exact encodes_of_decShiftRight hw h h0 h12
  case h_8 n0 n1 n2 n3 n4 n5 n6 =>
    have hlt := field_lt w 12 3
    have h12 : field w 12 3 = 7 := by
      simp only [imp_false] at n0 n1 n2 n3 n4 n5 n6
      omega
    exact encodes_of_decI h hw h0 h12 fun _ _ _ => ⟨rfl, rfl⟩
  all_goals exact encodes_of_decI h hw h0 (by assumption) fun _ _ _ => ⟨rfl, rfl⟩

theorem encodes_of_decLoad (h : decLoad w = .ok i) (h0 : field w 0 7 = 0x03) : Encodes i w := by
  unfold decLoad at h
  split at h
  case h_6 => cases h
  all_goals exact encodes_of_decI h hw h0 (by assumption) fun _ _ _ => ⟨rfl, rfl⟩

theorem encodes_of_decStore (h : decStore w = .ok i) (h0 : field w 0 7 = 0x23) : Encodes i w := by
  unfold decStore at h
  split at h
  case h_4 => cases h
  all_goals exact encodes_of_decS h hw h0 (by assumption) fun _ _ _ => ⟨rfl, rfl⟩

theorem encodes_of_decBranch (h : decBranch w = .ok i) (h0 : field w 0 7 = 0x63) : Encodes i w := by
  unfold decBranch at h
  split at h
  case h_7 => cases h
  all_goals exact encodes_of_decB h hw h0 (by assumption) fun _ _ _ => ⟨rfl, rfl⟩

theorem encodes_of_decSystem (h : decSystem w = .ok i) (h0 : field w 0 7 = 0x73) : Encodes i w := by
  unfold decSystem at h
  split at h
  case h_1 =>
    split at h
    · cases h; exact ⟨rfl, by simp only [encode]; omega⟩
    split at h
    · cases h; exact ⟨rfl, by simp only [encode]; omega⟩
    split at h
    · cases h; exact ⟨rfl, by simp only [encode]; omega⟩
    split at h
    · cases h; exact ⟨rfl, by simp only [encode]; omega⟩
    · cases h
  case h_8 => cases h
  case h_2 | h_3 | h_4 => exact encodes_of_decI h hw h0 (by assumption) fun _ _ _ => ⟨rfl, rfl⟩
  all_goals exact encodes_of_decCsrImm h hw h0 (by assumption) fun _ _ _ => ⟨rfl, rfl⟩

theorem encodes_of_decFence (h : decFence w = .ok i) (h0 : field w 0 7 = 0x0F) : Encodes i w := by
  unfold decFence at h
  split at h
  case h_1 h12 =>
    split at h
    · rename_i hzero
      obtain ⟨h28, h15, h7⟩ := hzero
      cases h
      refine ⟨rfl, ?_⟩
      rw [encode, toNat_ofNat_of_lt (field_lt ..), toNat_ofNat_of_lt (field_lt ..)]
      simp only [field] at *
      omega
    · cases h
  case h_2 =>
    split at h
    · cases h; exact ⟨rfl, by simp only [encode]; omega⟩
    · cases h
  case h_3 => cases h

/-- What the 32-bit decoder answers is well-formed, and its encoding is the word. -/
theorem encodes_of_decode32 (h : decode32 w = .ok i) : Encodes i w := by
  unfold decode32 at h
  split at h
  case h_1 h0 => exact encodes_of_decOp hw h h0
  case h_2 h0 => exact encodes_of_decOpImm hw h h0
  case h_3 h0 => exact encodes_of_decLoad hw h h0
  case h_4 h0 => exact encodes_of_decStore hw h h0
  case h_5 h0 => exact encodes_of_decBranch hw h h0
  case h_6 h0 => exact encodes_of_decU h hw h0 fun _ _ => ⟨rfl, rfl⟩
  case h_7 h0 => exact encodes_of_decU h hw h0 fun _ _ => ⟨rfl, rfl⟩
  case h_8 h0 => exact encodes_of_decJ h hw h0
  case h_9 h0 =>
    split at h
    · exact encodes_of_decI h hw h0 (by assumption) fun _ _ _ => ⟨rfl, rfl⟩
    · cases h
  case h_10 h0 => exact encodes_of_decSystem hw h h0
  case h_11 h0 => exact encodes_of_decFence hw h h0
  case h_12 h0 => exact encodes_of_decCustom2 h hw h0
  all_goals cases h

end

end Sys2Proof
end

section
/-!
The decoder and the encoder are inverse to each other (30_encoding.md section 3): the 16-bit formats, and with them the
round trip from an instruction to its bytes and back, and from bytes to an instruction and back.
-/

namespace Sys2Proof

open Machine

/-! ## Immediates whose pieces are spread over a parcel (R157 to R159): the pieces of what the decoder puts together -/

theorem ciImm_lt (p : Nat) : ciImm p < 2 ^ 6 := by
  simp only [ciImm, field]
  omega

theorem fields_ciImm (p : Nat) : field (ciImm p) 5 1 = field p 12 1 ∧ field (ciImm p) 0 5 = field p 2 5 := by
  have h12 := field_lt p 12 1
  have h2 := field_lt p 2 5
  simp only [ciImm]
  generalize field p 12 1 = a, field p 2 5 = b at *
  simp only [field]
  omega

theorem ciImm_of_fields {p n : Nat} (hn : n < 2 ^ 6) (h12 : field p 12 1 = field n 5 1) (h2 : field p 2 5 = field n 0 5) :
    ciImm p = n := by
  rw [ciImm, h12, h2]
  simp only [field]
  omega

theorem fields_addi4spnImm (p : Nat) :
    addi4spnImm p < 2 ^ 8 ∧ field (addi4spnImm p) 4 4 = field p 7 4 ∧ field (addi4spnImm p) 2 2 = field p 11 2 ∧
      field (addi4spnImm p) 1 1 = field p 5 1 ∧ field (addi4spnImm p) 0 1 = field p 6 1 := by
  have h7 := field_lt p 7 4
  have h11 := field_lt p 11 2
  have h5 := field_lt p 5 1
  have h6 := field_lt p 6 1
  simp only [addi4spnImm]
  generalize field p 7 4 = a, field p 11 2 = b, field p 5 1 = c, field p 6 1 = d at *
  simp only [field]
  omega

theorem addi4spnImm_of_fields {p n : Nat} (hn : n < 2 ^ 8) (h7 : field p 7 4 = field n 4 4)
    (h11 : field p 11 2 = field n 2 2) (h5 : field p 5 1 = field n 1 1) (h6 : field p 6 1 = field n 0 1) :
    addi4spnImm p = n := by
  rw [addi4spnImm, h7, h11, h5, h6]
  simp only [field]
  omega

theorem fields_addi16spImm (p : Nat) :
    addi16spImm p < 2 ^ 6 ∧ field (addi16spImm p) 5 1 = field p 12 1 ∧ field (addi16spImm p) 3 2 = field p 3 2 ∧
      field (addi16spImm p) 2 1 = field p 5 1 ∧ field (addi16spImm p) 1 1 = field p 2 1 ∧
      field (addi16spImm p) 0 1 = field p 6 1 := by
  have h12 := field_lt p 12 1
  have h3 := field_lt p 3 2
  have h5 := field_lt p 5 1
  have h2 := field_lt p 2 1
  have h6 := field_lt p 6 1
  simp only [addi16spImm]
  generalize field p 12 1 = a, field p 3 2 = b, field p 5 1 = c, field p 2 1 = d, field p 6 1 = e at *
  simp only [field]
  omega

theorem addi16spImm_of_fields {p n : Nat} (hn : n < 2 ^ 6) (h12 : field p 12 1 = field n 5 1)
    (h3 : field p 3 2 = field n 3 2) (h5 : field p 5 1 = field n 2 1) (h2 : field p 2 1 = field n 1 1)
    (h6 : field p 6 1 = field n 0 1) : addi16spImm p = n := by
  rw [addi16spImm, h12, h3, h5, h2, h6]
  simp only [field]
  omega

/-- The five pieces of C.ADDI16SP fill the six-bit field of the CI format. -/
theorem addi16spImm_eq_zero_iff (p : Nat) : addi16spImm p = 0 ↔ ciImm p = 0 := by
  simp only [addi16spImm, ciImm, field]
  omega

theorem fields_clwImm (p : Nat) :
    clwImm p < 2 ^ 5 ∧ field (clwImm p) 4 1 = field p 5 1 ∧ field (clwImm p) 1 3 = field p 10 3 ∧
      field (clwImm p) 0 1 = field p 6 1 := by
  have h5 := field_lt p 5 1
  have h10 := field_lt p 10 3
  have h6 := field_lt p 6 1
  simp only [clwImm]
  generalize field p 5 1 = a, field p 10 3 = b, field p 6 1 = c at *
  simp only [field]
  omega

theorem clwImm_of_fields {p n : Nat} (hn : n < 2 ^ 5) (h5 : field p 5 1 = field n 4 1) (h10 : field p 10 3 = field n 1 3)
    (h6 : field p 6 1 = field n 0 1) : clwImm p = n := by
  rw [clwImm, h5, h10, h6]
  simp only [field]
  omega

theorem fields_clwspImm (p : Nat) :
    clwspImm p < 2 ^ 6 ∧ field (clwspImm p) 4 2 = field p 2 2 ∧ field (clwspImm p) 3 1 = field p 12 1 ∧
      field (clwspImm p) 0 3 = field p 4 3 := by
  have h2 := field_lt p 2 2
  have h12 := field_lt p 12 1
  have h4 := field_lt p 4 3
  simp only [clwspImm]
  generalize field p 2 2 = a, field p 12 1 = b, field p 4 3 = c at *
  simp only [field]
  omega

theorem clwspImm_of_fields {p n : Nat} (hn : n < 2 ^ 6) (h2 : field p 2 2 = field n 4 2) (h12 : field p 12 1 = field n 3 1)
    (h4 : field p 4 3 = field n 0 3) : clwspImm p = n := by
  rw [clwspImm, h2, h12, h4]
  simp only [field]
  omega

theorem fields_cswspImm (p : Nat) :
    cswspImm p < 2 ^ 6 ∧ field (cswspImm p) 4 2 = field p 7 2 ∧ field (cswspImm p) 0 4 = field p 9 4 := by
  have h7 := field_lt p 7 2
  have h9 := field_lt p 9 4
  simp only [cswspImm]
  generalize field p 7 2 = a, field p 9 4 = b at *
  simp only [field]
  omega

theorem cswspImm_of_fields {p n : Nat} (hn : n < 2 ^ 6) (h7 : field p 7 2 = field n 4 2) (h9 : field p 9 4 = field n 0 4) :
    cswspImm p = n := by
  rw [cswspImm, h7, h9]
  simp only [field]
  omega

theorem fields_cbImm (p : Nat) :
    cbImm p < 2 ^ 8 ∧ field (cbImm p) 7 1 = field p 12 1 ∧ field (cbImm p) 5 2 = field p 5 2 ∧
      field (cbImm p) 4 1 = field p 2 1 ∧ field (cbImm p) 2 2 = field p 10 2 ∧ field (cbImm p) 0 2 = field p 3 2 := by
  have h12 := field_lt p 12 1
  have h5 := field_lt p 5 2
  have h2 := field_lt p 2 1
  have h10 := field_lt p 10 2
  have h3 := field_lt p 3 2
  simp only [cbImm]
  generalize field p 12 1 = a, field p 5 2 = b, field p 2 1 = c, field p 10 2 = d, field p 3 2 = e at *
  simp only [field]
  omega

theorem cbImm_of_fields {p n : Nat} (hn : n < 2 ^ 8) (h12 : field p 12 1 = field n 7 1) (h5 : field p 5 2 = field n 5 2)
    (h2 : field p 2 1 = field n 4 1) (h10 : field p 10 2 = field n 2 2) (h3 : field p 3 2 = field n 0 2) : cbImm p = n := by
  rw [cbImm, h12, h5, h2, h10, h3]
  simp only [field]
  omega

theorem fields_cjImm (p : Nat) :
    cjImm p < 2 ^ 11 ∧ field (cjImm p) 10 1 = field p 12 1 ∧ field (cjImm p) 9 1 = field p 8 1 ∧
      field (cjImm p) 7 2 = field p 9 2 ∧ field (cjImm p) 6 1 = field p 6 1 ∧ field (cjImm p) 5 1 = field p 7 1 ∧
      field (cjImm p) 4 1 = field p 2 1 ∧ field (cjImm p) 3 1 = field p 11 1 ∧ field (cjImm p) 0 3 = field p 3 3 := by
  have h12 := field_lt p 12 1
  have h8 := field_lt p 8 1
  have h9 := field_lt p 9 2
  have h6 := field_lt p 6 1
  have h7 := field_lt p 7 1
  have h2 := field_lt p 2 1
  have h11 := field_lt p 11 1
  have h3 := field_lt p 3 3
  simp only [cjImm]
  generalize field p 12 1 = a, field p 8 1 = b, field p 9 2 = c, field p 6 1 = d, field p 7 1 = e, field p 2 1 = f,
    field p 11 1 = g, field p 3 3 = h at *
  simp only [field]
  omega

theorem cjImm_of_fields {p n : Nat} (hn : n < 2 ^ 11) (h12 : field p 12 1 = field n 10 1) (h8 : field p 8 1 = field n 9 1)
    (h9 : field p 9 2 = field n 7 2) (h6 : field p 6 1 = field n 6 1) (h7 : field p 7 1 = field n 5 1)
    (h2 : field p 2 1 = field n 4 1) (h11 : field p 11 1 = field n 3 1) (h3 : field p 3 3 = field n 0 3) : cjImm p = n := by
  rw [cjImm, h12, h8, h9, h6, h7, h2, h11, h3]
  simp only [field]
  omega

/-- A three-bit register field read as its register (R172). -/
theorem cregAt_eq {p lo : Nat} {r : CReg} (h : field p lo 3 = r.val) : cregAt p lo = r := Fin.ext h

theorem cregAt_val (p lo : Nat) : (cregAt p lo).val = field p lo 3 := rfl

end Sys2Proof
end

section
/-!
The words of the 16-bit formats and the instructions they are read as (30_encoding.md section 3), one statement for each
instruction, from the fields of its format.
-/

namespace Sys2Proof.Machine

/-! ## From the 16-bit decoder to the table word -/

theorem mod_four_of_quadrant {p q : Nat} (hq : q < 3) (h0 : field p 0 2 = q) : p % 4 ≠ 3 := by
  simp only [field] at h0
  omega

theorem decodeTableWord_of_quadrant {p q : Nat} {i : Instr} (hp : p < 2 ^ 16) (hq : q < 3) (h0 : field p 0 2 = q)
    (h : decode16 p = .ok i) : decodeTableWord 16 p = some i :=
  decodeTableWord_narrow hp (mod_four_of_quadrant hq h0) h

theorem toNat_ne_zero {n : Nat} {x : BitVec n} (h : x ≠ 0) : x.toNat ≠ 0 := fun h0 => h (BitVec.eq_of_toNat_eq h0)

/-! ## CI format (R156, R157) -/

theorem decode16_of_quadrant1 {p : Nat} (h0 : field p 0 2 = 1) : decode16 p = decQ1 p := by simp only [decode16, h0]

/-- Words of this funct3 and quadrant are read as CI format (R156, R157). -/
def ReadsCi (f3 op : Nat) (k : Reg → BitVec 6 → Instr) (ok : Reg → BitVec 6 → Prop) : Prop :=
  ∀ (p : Nat) (rd : Reg) (imm : BitVec 6), ok rd imm → field p 0 2 = op → field p 13 3 = f3 → field p 7 5 = rd.val →
    ciImm p = imm.toNat → decode16 p = .ok (k rd imm)

theorem encodedCi_of_reads {f3 op : Nat} {k : Reg → BitVec 6 → Instr} {ok : Reg → BitVec 6 → Prop} (hop : op < 3)
    (hk : ReadsCi f3 op k ok) : EncodedCi f3 op k ok := fun p hp rd imm hok h0 h13 h7 h12 h2 =>
  decodeTableWord_of_quadrant hp hop h0 (hk p rd imm hok h0 h13 h7 (ciImm_of_fields imm.isLt h12 h2))

theorem readsCi_cAddi : ReadsCi 0 1 .cAddi (fun rd imm => rd ≠ 0 ∧ imm ≠ 0) := fun p rd imm ⟨hrd, himm⟩ h0 h13 h7 hci => by
  rw [decode16_of_quadrant1 h0, decQ1, h13, h7]
  simp only [withReg_val, hci, hrd, toNat_ne_zero himm, false_and, or_self, if_false, BitVec.ofNat_toNat,
    BitVec.setWidth_eq]

theorem readsCi_cLi : ReadsCi 2 1 .cLi (fun rd _ => rd ≠ 0) := fun p rd imm hrd h0 h13 h7 hci => by
  rw [decode16_of_quadrant1 h0, decQ1, h13, h7]
  simp only [withReg_val, hci, hrd, if_false, BitVec.ofNat_toNat, BitVec.setWidth_eq]

theorem readsCi_cLui : ReadsCi 3 1 .cLui (fun rd imm => rd ≠ 0 ∧ rd ≠ 2 ∧ imm ≠ 0) :=
  fun p rd imm ⟨hrd, hrd2, himm⟩ h0 h13 h7 hci => by
    rw [decode16_of_quadrant1 h0, decQ1, h13, h7]
    simp only [withReg_val, hci, hrd, hrd2, toNat_ne_zero himm, or_self, if_false, BitVec.ofNat_toNat, BitVec.setWidth_eq]

/-- The six-bit field of a shift amount below 32: bit 12 is 0, and the low field holds all of it. -/
theorem shamtFields_of_ciImm {p : Nat} {imm : BitVec 6} (h : imm.toNat < 32) (hci : ciImm p = imm.toNat) :
    field p 12 1 = 0 ∧ field p 2 5 = imm.toNat := by
  simp only [ciImm, field] at *
  omega

theorem readsCi_cSlli : ReadsCi 0 2 (fun rd imm => .cSlli rd (imm.setWidth 5))
    (fun rd imm => rd ≠ 0 ∧ 0 < imm.toNat ∧ imm.toNat < 32) := fun p rd imm ⟨hrd, hpos, hlt⟩ h0 h13 h7 hci => by
  obtain ⟨h12, h2⟩ := shamtFields_of_ciImm hlt hci
  rw [decode16_quadrant2 h0, decQ2, h13, h7]
  simp only [withReg_val, h12, h2, hrd, ne_eq, not_true_eq_false, Nat.ne_of_gt hpos, or_self, if_false]
  rfl

/-! ## CR format (R155, R156) -/

/-- The CR words: bit 12 tells C.MV from C.ADD. -/
theorem fields_of_top4 {p f4 : Nat} (h : field p 12 4 = f4) : field p 13 3 = f4 / 2 ∧ field p 12 1 = f4 % 2 := by
  simp only [field] at *
  omega

theorem encodedCr_cMv : EncodedCr 0b1000 .cMv := fun p hp rd rs2 hrd hrs2 h0 h4 h7 h2 => by
  obtain ⟨h13, h12⟩ := fields_of_top4 h4
  refine decodeTableWord_of_quadrant hp (by decide) h0 ?_
  rw [decode16_quadrant2 h0, decQ2, h13, h7, h2]
  simp only [withReg_val, h12, hrd, hrs2, if_false, if_true]

theorem encodedCr_cAdd : EncodedCr 0b1001 .cAdd := fun p hp rd rs2 hrd hrs2 h0 h4 h7 h2 => by
  obtain ⟨h13, h12⟩ := fields_of_top4 h4
  refine decodeTableWord_of_quadrant hp (by decide) h0 ?_
  rw [decode16_quadrant2 h0, decQ2, h13, h7, h2]
  simp only [withReg_val, h12, hrd, hrs2, if_false, Nat.reduceMod, one_ne_zero]

/-! ## C.ADDI4SPN and C.ADDI16SP (R158) -/

theorem encodedCiw_cAddi4spn : EncodedCiw .cAddi4spn := fun p hp rd imm himm h0 h13 h2 h11 h7 h6 h5 => by
  have val := addi4spnImm_of_fields imm.isLt h7 h11 h5 h6
  have hne : p ≠ 0 := fun hz => toNat_ne_zero himm (by rw [← val, hz]; rfl)
  refine decodeTableWord_of_quadrant hp (by decide) h0 ?_
  rw [decode16_quadrant0 h0, decQ0, h13, val, cregAt_eq h2]
  simp only [hne, toNat_ne_zero himm, if_false, BitVec.ofNat_toNat, BitVec.setWidth_eq]

theorem encodedAddi16sp_cAddi16sp : EncodedAddi16sp .cAddi16sp := fun p hp imm himm h0 h13 h7 h12 h6 h5 h3 h2 => by
  have val := addi16spImm_of_fields imm.isLt h12 h3 h5 h2 h6
  have hci : ciImm p ≠ 0 := fun hz => toNat_ne_zero himm (val.symm.trans ((addi16spImm_eq_zero_iff p).mpr hz))
  refine decodeTableWord_of_quadrant hp (by decide) h0 ?_
  rw [decode16_of_quadrant1 h0, decQ1, h13, h7, val, show (2 : Nat) = (2 : Reg).val from rfl]
  simp only [withReg_val, hci, if_true, BitVec.ofNat_toNat, BitVec.setWidth_eq]
  rfl

/-! ## The arithmetic of quadrant 01, funct3 100 (R156, R163) -/

theorem decode16_of_alu {p : Nat} (h0 : field p 0 2 = 1) (h13 : field p 13 3 = 4) : decode16 p = decQ1Alu p := by
  simp only [decode16_of_quadrant1 h0, decQ1, h13]

/-- Words of these bits [11:10] on funct3 100 are read as the CB format of the shifts and C.ANDI (R156, R158). -/
def ReadsCbAlu (f2 : Nat) (k : CReg → BitVec 6 → Instr) (ok : BitVec 6 → Prop) : Prop :=
  ∀ (p : Nat) (rd : CReg) (imm : BitVec 6), ok imm → field p 10 2 = f2 → cregAt p 7 = rd → ciImm p = imm.toNat →
    decQ1Alu p = .ok (k rd imm)

theorem encodedCbAlu_of_reads {f2 : Nat} {k : CReg → BitVec 6 → Instr} {ok : BitVec 6 → Prop} (hk : ReadsCbAlu f2 k ok) :
    EncodedCbAlu f2 k ok := fun p hp rd imm hok h0 h13 h10 h7 h12 h2 =>
  decodeTableWord_of_quadrant hp (by decide) h0 <| (decode16_of_alu h0 h13).trans <|
    hk p rd imm hok h10 (cregAt_eq h7) (ciImm_of_fields imm.isLt h12 h2)

theorem readsCbAlu_cAndi : ReadsCbAlu 2 .cAndi (fun _ => True) := fun p rd imm _ h10 h7 hci => by
  simp only [decQ1Alu, h10, h7, hci, BitVec.ofNat_toNat, BitVec.setWidth_eq]

theorem readsCbAlu_cSrli : ReadsCbAlu 0 (fun rd imm => .cSrli rd (imm.setWidth 5))
    (fun imm => 0 < imm.toNat ∧ imm.toNat < 32) := fun p rd imm ⟨hpos, hlt⟩ h10 h7 hci => by
  obtain ⟨h12, h2⟩ := shamtFields_of_ciImm hlt hci
  simp only [decQ1Alu, h10, h7, h12, h2, ne_eq, Nat.ne_of_gt hpos, not_false_eq_true, and_self, if_true]
  rfl

theorem readsCbAlu_cSrai : ReadsCbAlu 1 (fun rd imm => .cSrai rd (imm.setWidth 5))
    (fun imm => 0 < imm.toNat ∧ imm.toNat < 32) := fun p rd imm ⟨hpos, hlt⟩ h10 h7 hci => by
  obtain ⟨h12, h2⟩ := shamtFields_of_ciImm hlt hci
  simp only [decQ1Alu, h10, h7, h12, h2, ne_eq, Nat.ne_of_gt hpos, not_false_eq_true, and_self, if_true]
  rfl

/-- The six high bits of a CA or CU word: its funct3, bit 12 and bits [11:10]. -/
theorem fields_of_top6 {p f6 : Nat} (h : field p 10 6 = f6) :
    field p 13 3 = f6 / 8 ∧ field p 12 1 = f6 / 4 % 2 ∧ field p 10 2 = f6 % 4 := by
  simp only [field] at *
  omega

/-- Words of these bits [15:10] and [6:5] are read as CA format (R156). -/
theorem encodedCa_of_reads {f6 f2 : Nat} {k : CReg → CReg → Instr} (h4 : f6 / 8 = 4)
    (hk : ∀ p, field p 12 1 = f6 / 4 % 2 → field p 10 2 = f6 % 4 → field p 5 2 = f2 →
      decQ1Alu p = .ok (k (cregAt p 7) (cregAt p 2))) : EncodedCa f6 f2 k := fun p hp rd rs2 h0 h6 h5 h7 h2 => by
  obtain ⟨h13, h12, h10⟩ := fields_of_top6 h6
  refine decodeTableWord_of_quadrant hp (by decide) h0 ?_
  rw [decode16_of_alu h0 (h13.trans h4), hk p h12 h10 h5, cregAt_eq h7, cregAt_eq h2]

theorem encodedCa_cSub : EncodedCa 0b100011 0b00 .cSub :=
  encodedCa_of_reads (by decide) fun p h12 h10 h5 => by simp only [decQ1Alu, h12, h10, h5, Nat.reduceDiv, Nat.reduceMod]

theorem encodedCa_cXor : EncodedCa 0b100011 0b01 .cXor :=
  encodedCa_of_reads (by decide) fun p h12 h10 h5 => by simp only [decQ1Alu, h12, h10, h5, Nat.reduceDiv, Nat.reduceMod]

theorem encodedCa_cOr : EncodedCa 0b100011 0b10 .cOr :=
  encodedCa_of_reads (by decide) fun p h12 h10 h5 => by simp only [decQ1Alu, h12, h10, h5, Nat.reduceDiv, Nat.reduceMod]

theorem encodedCa_cAnd : EncodedCa 0b100011 0b11 .cAnd :=
  encodedCa_of_reads (by decide) fun p h12 h10 h5 => by simp only [decQ1Alu, h12, h10, h5, Nat.reduceDiv, Nat.reduceMod]

theorem encodedCa_cMul : EncodedCa 0b100111 0b10 .cMul :=
  encodedCa_of_reads (by decide) fun p h12 h10 h5 => by simp only [decQ1Alu, h12, h10, h5, Nat.reduceDiv, Nat.reduceMod]

theorem encodedCu_of_reads {f3 : Nat} {k : CReg → Instr}
    (hk : ∀ p, field p 12 1 = 1 → field p 10 2 = 3 → field p 5 2 = 3 → field p 2 3 = f3 →
      decQ1Alu p = .ok (k (cregAt p 7))) : EncodedCu f3 k := fun p hp rd h0 h6 h5 h2 h7 => by
  obtain ⟨h13, h12, h10⟩ := fields_of_top6 h6
  refine decodeTableWord_of_quadrant hp (by decide) h0 ?_
  rw [decode16_of_alu h0 h13, hk p h12 h10 h5 h2, cregAt_eq h7]

theorem encodedCu_cZextB : EncodedCu 0b000 .cZextB :=
  encodedCu_of_reads fun p h12 h10 h5 h2 => by simp only [decQ1Alu, h12, h10, h5, h2]

theorem encodedCu_cSextB : EncodedCu 0b001 .cSextB :=
  encodedCu_of_reads fun p h12 h10 h5 h2 => by simp only [decQ1Alu, h12, h10, h5, h2]

theorem encodedCu_cZextH : EncodedCu 0b010 .cZextH :=
  encodedCu_of_reads fun p h12 h10 h5 h2 => by simp only [decQ1Alu, h12, h10, h5, h2]

theorem encodedCu_cSextH : EncodedCu 0b011 .cSextH :=
  encodedCu_of_reads fun p h12 h10 h5 h2 => by simp only [decQ1Alu, h12, h10, h5, h2]

theorem encodedCu_cNot : EncodedCu 0b101 .cNot :=
  encodedCu_of_reads fun p h12 h10 h5 h2 => by simp only [decQ1Alu, h12, h10, h5, h2]

end Sys2Proof.Machine
end

section
/-!
Decoding what the encoder writes (30_encoding.md sections 1 to 4): the 16-bit formats, the instructions of each format, and
with the 32-bit formats every instruction.
-/

namespace Sys2Proof

open Machine

/-! ## The 16-bit formats whose words are tabled -/

theorem decode16_of_tableWord {p : Nat} {i : Instr} (hp : p < 2 ^ 16) (h3 : p % 4 ≠ 3)
    (h : decodeTableWord 16 p = some i) : decode16 p = .ok i := by
  have e : parcel (BitVec.ofNat 8 p) (BitVec.ofNat 8 (p / 2 ^ 8)) = p := by rw [parcel_ofNat]; omega
  unfold decodeTableWord at h
  rw [Nat.mod_eq_of_lt hp] at h
  simp only [leBytes, decode, e, h3, ne_eq, not_false_eq_true, if_true] at h
  split at h
  · rename_i hi
    rw [hi, Option.some_inj.mp h]
  · cases h

/-- An instruction whose parcel the table word reads back. -/
theorem decode_encodeBytes_of_tableWord {i : Instr} {q : Nat} (hq : q < 3) (hlt : encode i < 2 ^ 16)
    (h0 : field (encode i) 0 2 = q) (h : decodeTableWord 16 (encode i) = some i) : decode (encodeBytes i) = .ok i :=
  decode_encodeBytes_narrow hq hlt h0 (decode16_of_tableWord hlt (mod_four_of_quadrant hq h0) h)

theorem fields_encCi {f3 op imm : Nat} (h3 : f3 < 2 ^ 3) (hop : op < 2 ^ 2) (rd : Reg) :
    encCi f3 op rd.val imm < 2 ^ 16 ∧ field (encCi f3 op rd.val imm) 0 2 = op ∧ field (encCi f3 op rd.val imm) 13 3 = f3 ∧
      field (encCi f3 op rd.val imm) 7 5 = rd.val ∧ field (encCi f3 op rd.val imm) 12 1 = field imm 5 1 ∧
      field (encCi f3 op rd.val imm) 2 5 = field imm 0 5 := by
  have h5 := field_lt imm 5 1
  have h0 := field_lt imm 0 5
  simp only [encCi]
  generalize field imm 5 1 = high, field imm 0 5 = low at *
  simp only [field]
  omega

theorem decode_encodeBytes_Ci {f3 op : Nat} {k : Reg → BitVec 6 → Instr} {ok : Reg → BitVec 6 → Prop} {rd : Reg}
    {imm : BitVec 6} (hk : EncodedCi f3 op k ok) (hok : ok rd imm)
    (hi : encode (k rd imm) = encCi f3 op rd.val imm.toNat) (h3 : f3 < 2 ^ 3) (hop : op < 3) :
    decode (encodeBytes (k rd imm)) = .ok (k rd imm) := by
  obtain ⟨hlt, f0, f13, f7, f12, f2⟩ := fields_encCi (imm := imm.toNat) h3 (show op < 2 ^ 2 by omega) rd
  rw [← hi] at hlt f0 f13 f7 f12 f2
  exact decode_encodeBytes_of_tableWord hop hlt f0 (hk _ hlt rd imm hok f0 f13 f7 f12 f2)

theorem fields_encCr {f4 : Nat} (h4 : f4 < 2 ^ 4) (rd rs2 : Reg) :
    encCr f4 rd.val rs2.val < 2 ^ 16 ∧ field (encCr f4 rd.val rs2.val) 0 2 = 2 ∧
      field (encCr f4 rd.val rs2.val) 12 4 = f4 ∧ field (encCr f4 rd.val rs2.val) 7 5 = rd.val ∧
      field (encCr f4 rd.val rs2.val) 2 5 = rs2.val := by
  simp only [encCr, field]
  omega

theorem decode_encodeBytes_Cr {f4 : Nat} {k : Reg → Reg → Instr} {rd rs2 : Reg} (hk : EncodedCr f4 k) (hrd : rd ≠ 0)
    (hrs2 : rs2 ≠ 0) (hi : encode (k rd rs2) = encCr f4 rd.val rs2.val) (h4 : f4 < 2 ^ 4) :
    decode (encodeBytes (k rd rs2)) = .ok (k rd rs2) := by
  obtain ⟨hlt, f0, f12, f7, f2⟩ := fields_encCr h4 rd rs2
  rw [← hi] at hlt f0 f12 f7 f2
  exact decode_encodeBytes_of_tableWord (by decide) hlt f0 (hk _ hlt rd rs2 hrd hrs2 f0 f12 f7 f2)

theorem decode_encodeBytes_cAddi4spn {rd : CReg} {imm : BitVec 8} (himm : imm ≠ 0) :
    decode (encodeBytes (.cAddi4spn rd imm)) = .ok (.cAddi4spn rd imm) := by
  have fields : encode (.cAddi4spn rd imm) < 2 ^ 16 ∧ field (encode (.cAddi4spn rd imm)) 0 2 = 0 ∧
      field (encode (.cAddi4spn rd imm)) 13 3 = 0 ∧ field (encode (.cAddi4spn rd imm)) 2 3 = rd.val ∧
      field (encode (.cAddi4spn rd imm)) 11 2 = field imm.toNat 2 2 ∧
      field (encode (.cAddi4spn rd imm)) 7 4 = field imm.toNat 4 4 ∧
      field (encode (.cAddi4spn rd imm)) 6 1 = field imm.toNat 0 1 ∧
      field (encode (.cAddi4spn rd imm)) 5 1 = field imm.toNat 1 1 := by
    have h2 := field_lt imm.toNat 2 2
    have h4 := field_lt imm.toNat 4 4
    have h0 := field_lt imm.toNat 0 1
    have h1 := field_lt imm.toNat 1 1
    simp only [encode]
    generalize field imm.toNat 2 2 = a, field imm.toNat 4 4 = b, field imm.toNat 0 1 = c, field imm.toNat 1 1 = d at *
    simp only [field]
    omega
  obtain ⟨hlt, f0, f13, f2, f11, f7, f6, f5⟩ := fields
  exact decode_encodeBytes_of_tableWord (by decide) hlt f0
    (encodedCiw_cAddi4spn _ hlt rd imm himm f0 f13 f2 f11 f7 f6 f5)

theorem decode_encodeBytes_cAddi16sp {imm : BitVec 6} (himm : imm ≠ 0) :
    decode (encodeBytes (.cAddi16sp imm)) = .ok (.cAddi16sp imm) := by
  have fields : encode (.cAddi16sp imm) < 2 ^ 16 ∧ field (encode (.cAddi16sp imm)) 0 2 = 1 ∧
      field (encode (.cAddi16sp imm)) 13 3 = 3 ∧ field (encode (.cAddi16sp imm)) 7 5 = 2 ∧
      field (encode (.cAddi16sp imm)) 12 1 = field imm.toNat 5 1 ∧
      field (encode (.cAddi16sp imm)) 6 1 = field imm.toNat 0 1 ∧
      field (encode (.cAddi16sp imm)) 5 1 = field imm.toNat 2 1 ∧
      field (encode (.cAddi16sp imm)) 3 2 = field imm.toNat 3 2 ∧
      field (encode (.cAddi16sp imm)) 2 1 = field imm.toNat 1 1 := by
    have h5 := field_lt imm.toNat 5 1
    have h0 := field_lt imm.toNat 0 1
    have h2 := field_lt imm.toNat 2 1
    have h3 := field_lt imm.toNat 3 2
    have h1 := field_lt imm.toNat 1 1
    simp only [encode]
    generalize field imm.toNat 5 1 = a, field imm.toNat 0 1 = b, field imm.toNat 2 1 = c, field imm.toNat 3 2 = d,
      field imm.toNat 1 1 = e at *
    simp only [field]
    omega
  obtain ⟨hlt, f0, f13, f7, f12, f6, f5, f3, f2⟩ := fields
  exact decode_encodeBytes_of_tableWord (by decide) hlt f0
    (encodedAddi16sp_cAddi16sp _ hlt imm himm f0 f13 f7 f12 f6 f5 f3 f2)

theorem decode_encodeBytes_CbAlu {f2 : Nat} {k : CReg → BitVec 6 → Instr} {ok : BitVec 6 → Prop} {rd : CReg}
    {imm : BitVec 6} (hk : EncodedCbAlu f2 k ok) (hok : ok imm) (hi : encode (k rd imm) = encCbAlu f2 rd imm.toNat)
    (h2 : f2 < 2 ^ 2) : decode (encodeBytes (k rd imm)) = .ok (k rd imm) := by
  have fields : encode (k rd imm) < 2 ^ 16 ∧ field (encode (k rd imm)) 0 2 = 1 ∧ field (encode (k rd imm)) 13 3 = 4 ∧
      field (encode (k rd imm)) 10 2 = f2 ∧ field (encode (k rd imm)) 7 3 = rd.val ∧
      field (encode (k rd imm)) 12 1 = field imm.toNat 5 1 ∧ field (encode (k rd imm)) 2 5 = field imm.toNat 0 5 := by
    have h5 := field_lt imm.toNat 5 1
    have h0 := field_lt imm.toNat 0 5
    rw [hi]
    simp only [encCbAlu]
    generalize field imm.toNat 5 1 = high, field imm.toNat 0 5 = low at *
    simp only [field]
    omega
  obtain ⟨hlt, f0, f13, f10, f7, f12, f2⟩ := fields
  exact decode_encodeBytes_of_tableWord (by decide) hlt f0 (hk _ hlt rd imm hok f0 f13 f10 f7 f12 f2)

theorem fields_encCa {f6 f2 : Nat} (h6 : f6 < 2 ^ 6) (h2 : f2 < 2 ^ 2) (rd rs2 : CReg) :
    encCa f6 f2 rd rs2 < 2 ^ 16 ∧ field (encCa f6 f2 rd rs2) 0 2 = 1 ∧ field (encCa f6 f2 rd rs2) 10 6 = f6 ∧
      field (encCa f6 f2 rd rs2) 5 2 = f2 ∧ field (encCa f6 f2 rd rs2) 7 3 = rd.val ∧
      field (encCa f6 f2 rd rs2) 2 3 = rs2.val := by
  simp only [encCa, field]
  omega

theorem decode_encodeBytes_Ca {f6 f2 : Nat} {k : CReg → CReg → Instr} {rd rs2 : CReg} (hk : EncodedCa f6 f2 k)
    (hi : encode (k rd rs2) = encCa f6 f2 rd rs2) (h6 : f6 < 2 ^ 6) (h2 : f2 < 2 ^ 2) :
    decode (encodeBytes (k rd rs2)) = .ok (k rd rs2) := by
  obtain ⟨hlt, f0, f10, f5, f7, f2'⟩ := fields_encCa h6 h2 rd rs2
  rw [← hi] at hlt f0 f10 f5 f7 f2'
  exact decode_encodeBytes_of_tableWord (by decide) hlt f0 (hk _ hlt rd rs2 f0 f10 f5 f7 f2')

theorem decode_encodeBytes_Cu {f3 : Nat} {k : CReg → Instr} {rd : CReg} (hk : EncodedCu f3 k)
    (hi : encode (k rd) = encCu f3 rd) (h3 : f3 < 2 ^ 3) : decode (encodeBytes (k rd)) = .ok (k rd) := by
  obtain ⟨hlt, f0, f10, f5, f7, f2⟩ := fields_encCa (f6 := 39) (f2 := 3) (by decide) (by decide) rd ⟨f3, h3⟩
  have hi : encode (k rd) = encCa 39 3 rd ⟨f3, h3⟩ := hi
  rw [← hi] at hlt f0 f10 f5 f7 f2
  exact decode_encodeBytes_of_tableWord (by decide) hlt f0 (hk _ hlt rd f0 f10 f5 f2 f7)

/-! ## Jumps and branches (R156 to R158) -/

theorem decode_encodeBytes_Cj {f3 : Nat} {k : BitVec 11 → Instr} {imm : BitVec 11} (hi : encode (k imm) = encCj f3 imm)
    (h3 : f3 < 2 ^ 3) (hk : ∀ p, field p 13 3 = f3 → decQ1 p = .ok (k (BitVec.ofNat 11 (cjImm p)))) :
    decode (encodeBytes (k imm)) = .ok (k imm) := by
  have fields : encode (k imm) < 2 ^ 16 ∧ field (encode (k imm)) 0 2 = 1 ∧ field (encode (k imm)) 13 3 = f3 ∧
      field (encode (k imm)) 12 1 = field imm.toNat 10 1 ∧ field (encode (k imm)) 8 1 = field imm.toNat 9 1 ∧
      field (encode (k imm)) 9 2 = field imm.toNat 7 2 ∧ field (encode (k imm)) 6 1 = field imm.toNat 6 1 ∧
      field (encode (k imm)) 7 1 = field imm.toNat 5 1 ∧ field (encode (k imm)) 2 1 = field imm.toNat 4 1 ∧
      field (encode (k imm)) 11 1 = field imm.toNat 3 1 ∧ field (encode (k imm)) 3 3 = field imm.toNat 0 3 := by
    have h10 := field_lt imm.toNat 10 1
    have h9 := field_lt imm.toNat 9 1
    have h7 := field_lt imm.toNat 7 2
    have h6 := field_lt imm.toNat 6 1
    have h5 := field_lt imm.toNat 5 1
    have h4 := field_lt imm.toNat 4 1
    have h3 := field_lt imm.toNat 3 1
    have h0 := field_lt imm.toNat 0 3
    rw [hi]
    simp only [encCj]
    generalize field imm.toNat 10 1 = a, field imm.toNat 9 1 = b, field imm.toNat 7 2 = c, field imm.toNat 6 1 = d,
      field imm.toNat 5 1 = e, field imm.toNat 4 1 = f, field imm.toNat 3 1 = g, field imm.toNat 0 3 = h at *
    simp only [field]
    omega
  obtain ⟨hlt, f0, f13, f12, f8, f9, f6, f7, f2, f11, f3'⟩ := fields
  refine decode_encodeBytes_narrow (by decide) hlt f0 ?_
  rw [decode16_of_quadrant1 f0, hk _ f13, cjImm_of_fields imm.isLt f12 f8 f9 f6 f7 f2 f11 f3', ofNat_of_eq_toNat rfl]

theorem decode_encodeBytes_Cb {f3 : Nat} {k : CReg → BitVec 8 → Instr} {rs1 : CReg} {imm : BitVec 8}
    (hi : encode (k rs1 imm) = encCb f3 rs1 imm) (h3 : f3 < 2 ^ 3)
    (hk : ∀ p, field p 13 3 = f3 → decQ1 p = .ok (k (cregAt p 7) (BitVec.ofNat 8 (cbImm p)))) :
    decode (encodeBytes (k rs1 imm)) = .ok (k rs1 imm) := by
  have fields : encode (k rs1 imm) < 2 ^ 16 ∧ field (encode (k rs1 imm)) 0 2 = 1 ∧ field (encode (k rs1 imm)) 13 3 = f3 ∧
      field (encode (k rs1 imm)) 7 3 = rs1.val ∧ field (encode (k rs1 imm)) 12 1 = field imm.toNat 7 1 ∧
      field (encode (k rs1 imm)) 5 2 = field imm.toNat 5 2 ∧ field (encode (k rs1 imm)) 2 1 = field imm.toNat 4 1 ∧
      field (encode (k rs1 imm)) 10 2 = field imm.toNat 2 2 ∧ field (encode (k rs1 imm)) 3 2 = field imm.toNat 0 2 := by
    have h7 := field_lt imm.toNat 7 1
    have h5 := field_lt imm.toNat 5 2
    have h4 := field_lt imm.toNat 4 1
    have h2 := field_lt imm.toNat 2 2
    have h0 := field_lt imm.toNat 0 2
    rw [hi]
    simp only [encCb]
    generalize field imm.toNat 7 1 = a, field imm.toNat 5 2 = b, field imm.toNat 4 1 = c, field imm.toNat 2 2 = d,
      field imm.toNat 0 2 = e at *
    simp only [field]
    omega
  obtain ⟨hlt, f0, f13, f7, f12, f5, f2, f10, f3'⟩ := fields
  refine decode_encodeBytes_narrow (by decide) hlt f0 ?_
  rw [decode16_of_quadrant1 f0, hk _ f13, cregAt_eq f7, cbImm_of_fields imm.isLt f12 f5 f2 f10 f3', ofNat_of_eq_toNat rfl]

/-! ## Loads and stores (R156, R158, R159) -/

theorem decode_encodeBytes_Clw {f3 : Nat} {k : CReg → CReg → BitVec 5 → Instr} {r rs1 : CReg} {imm : BitVec 5}
    (hi : encode (k r rs1 imm) = encClw f3 r rs1 imm) (h3 : f3 < 2 ^ 3)
    (hk : ∀ p, field p 13 3 = f3 → decQ0 p = .ok (k (cregAt p 2) (cregAt p 7) (BitVec.ofNat 5 (clwImm p)))) :
    decode (encodeBytes (k r rs1 imm)) = .ok (k r rs1 imm) := by
  have fields : encode (k r rs1 imm) < 2 ^ 16 ∧ field (encode (k r rs1 imm)) 0 2 = 0 ∧
      field (encode (k r rs1 imm)) 13 3 = f3 ∧ field (encode (k r rs1 imm)) 2 3 = r.val ∧
      field (encode (k r rs1 imm)) 7 3 = rs1.val ∧ field (encode (k r rs1 imm)) 5 1 = field imm.toNat 4 1 ∧
      field (encode (k r rs1 imm)) 10 3 = field imm.toNat 1 3 ∧ field (encode (k r rs1 imm)) 6 1 = field imm.toNat 0 1 := by
    have h4 := field_lt imm.toNat 4 1
    have h1 := field_lt imm.toNat 1 3
    have h0 := field_lt imm.toNat 0 1
    rw [hi]
    simp only [encClw]
    generalize field imm.toNat 4 1 = a, field imm.toNat 1 3 = b, field imm.toNat 0 1 = c at *
    simp only [field]
    omega
  obtain ⟨hlt, f0, f13, f2, f7, f5, f10, f6⟩ := fields
  refine decode_encodeBytes_narrow (by decide) hlt f0 ?_
  rw [decode16_quadrant0 f0, hk _ f13, cregAt_eq f2, cregAt_eq f7, clwImm_of_fields imm.isLt f5 f10 f6,
    ofNat_of_eq_toNat rfl]

theorem decode_encodeBytes_cLwsp {rd : Reg} {imm : BitVec 6} (hrd : rd ≠ 0) :
    decode (encodeBytes (.cLwsp rd imm)) = .ok (.cLwsp rd imm) := by
  have fields : encode (.cLwsp rd imm) < 2 ^ 16 ∧ field (encode (.cLwsp rd imm)) 0 2 = 2 ∧
      field (encode (.cLwsp rd imm)) 13 3 = 2 ∧ field (encode (.cLwsp rd imm)) 7 5 = rd.val ∧
      field (encode (.cLwsp rd imm)) 2 2 = field imm.toNat 4 2 ∧
      field (encode (.cLwsp rd imm)) 12 1 = field imm.toNat 3 1 ∧
      field (encode (.cLwsp rd imm)) 4 3 = field imm.toNat 0 3 := by
    have h4 := field_lt imm.toNat 4 2
    have h3 := field_lt imm.toNat 3 1
    have h0 := field_lt imm.toNat 0 3
    simp only [encode]
    generalize field imm.toNat 4 2 = a, field imm.toNat 3 1 = b, field imm.toNat 0 3 = c at *
    simp only [field]
    omega
  obtain ⟨hlt, f0, f13, f7, f2, f12, f4⟩ := fields
  refine decode_encodeBytes_narrow (by decide) hlt f0 ?_
  rw [decode16_quadrant2 f0, decQ2, f13, f7, clwspImm_of_fields imm.isLt f2 f12 f4, ofNat_of_eq_toNat rfl]
  simp only [withReg_val, hrd, if_false]

theorem decode_encodeBytes_cSwsp (rs2 : Reg) (imm : BitVec 6) :
    decode (encodeBytes (.cSwsp rs2 imm)) = .ok (.cSwsp rs2 imm) := by
  have fields : encode (.cSwsp rs2 imm) < 2 ^ 16 ∧ field (encode (.cSwsp rs2 imm)) 0 2 = 2 ∧
      field (encode (.cSwsp rs2 imm)) 13 3 = 6 ∧ field (encode (.cSwsp rs2 imm)) 2 5 = rs2.val ∧
      field (encode (.cSwsp rs2 imm)) 7 2 = field imm.toNat 4 2 ∧
      field (encode (.cSwsp rs2 imm)) 9 4 = field imm.toNat 0 4 := by
    have h4 := field_lt imm.toNat 4 2
    have h0 := field_lt imm.toNat 0 4
    simp only [encode]
    generalize field imm.toNat 4 2 = a, field imm.toNat 0 4 = b at *
    simp only [field]
    omega
  obtain ⟨hlt, f0, f13, f2, f7, f9⟩ := fields
  refine decode_encodeBytes_narrow (by decide) hlt f0 ?_
  rw [decode16_quadrant2 f0, decQ2, f13, f2, cswspImm_of_fields imm.isLt f7 f9, ofNat_of_eq_toNat rfl]
  simp only [withReg_val]

theorem fields_encZcb {f6 two : Nat} (h6 : f6 < 2 ^ 6) (htwo : two < 2 ^ 2) (r rs1 : CReg) :
    encZcb f6 two r rs1 < 2 ^ 16 ∧ field (encZcb f6 two r rs1) 0 2 = 0 ∧ field (encZcb f6 two r rs1) 13 3 = f6 / 8 ∧
      field (encZcb f6 two r rs1) 10 3 = f6 % 8 ∧ field (encZcb f6 two r rs1) 2 3 = r.val ∧
      field (encZcb f6 two r rs1) 7 3 = rs1.val ∧ field (encZcb f6 two r rs1) 6 1 = two / 2 ∧
      field (encZcb f6 two r rs1) 5 1 = two % 2 := by
  simp only [encZcb, field]
  omega

/-- A Zcb access whose fields quadrant 00 reads back. -/
theorem decode_encodeBytes_Zcb {i : Instr} {f6 two : Nat} {r rs1 : CReg} (hi : encode i = encZcb f6 two r rs1)
    (h6 : f6 < 2 ^ 6) (htwo : two < 2 ^ 2)
    (hd : ∀ p, field p 13 3 = f6 / 8 → field p 10 3 = f6 % 8 → cregAt p 2 = r → cregAt p 7 = rs1 →
      field p 6 1 = two / 2 → field p 5 1 = two % 2 → decQ0 p = .ok i) : decode (encodeBytes i) = .ok i := by
  obtain ⟨hlt, f0, f13, f10, f2, f7, f6', f5⟩ := fields_encZcb h6 htwo r rs1
  rw [← hi] at hlt f0 f13 f10 f2 f7 f6' f5
  refine decode_encodeBytes_narrow (by decide) hlt f0 ?_
  rw [decode16_quadrant0 f0, hd _ f13 f10 (cregAt_eq f2) (cregAt_eq f7) f6' f5]

theorem encByteImm_lt (imm : BitVec 2) : encByteImm imm < 2 ^ 2 := by
  simp only [encByteImm, field]
  omega

/-- The byte offset stands with its two bits exchanged. -/
theorem encByteImm_exchanged : ∀ imm : BitVec 2, encByteImm imm % 2 * 2 + encByteImm imm / 2 = imm.toNat := by decide

theorem zcbByteImm_of_fields {p : Nat} {imm : BitVec 2} (h6 : field p 6 1 = encByteImm imm / 2)
    (h5 : field p 5 1 = encByteImm imm % 2) : BitVec.ofNat 2 (zcbByteImm p) = imm := by
  refine ofNat_of_eq_toNat ?_
  rw [zcbByteImm, h6, h5, encByteImm_exchanged]

/-! ## Zcmp and Zcmt (R156) -/

theorem decode16_of_zcmp {p : Nat} (h0 : field p 0 2 = 2) (h13 : field p 13 3 = 5) : decode16 p = decZcmpZcmt p := by
  simp only [decode16_quadrant2 h0, decQ2, h13]

theorem fields_encStack {f5 : Nat} (h5 : f5 < 2 ^ 5) (l : RegList) (spimm : BitVec 2) :
    encStack f5 l spimm < 2 ^ 16 ∧ field (encStack f5 l spimm) 0 2 = 2 ∧ field (encStack f5 l spimm) 13 3 = 5 ∧
      field (encStack f5 l spimm) 8 5 = f5 ∧ field (encStack f5 l spimm) 4 4 = l.code ∧
      field (encStack f5 l spimm) 2 2 = spimm.toNat := by
  have hl : l.code < 2 ^ 4 := by cases l <;> decide
  simp only [encStack]
  generalize l.code = code at *
  simp only [field]
  omega

/-- The register list that a list's field names is that list. -/
theorem decStack_code {p : Nat} {l : RegList} {spimm : BitVec 2} {k : RegList → BitVec 2 → Instr}
    (h4 : field p 4 4 = l.code) (h2 : field p 2 2 = spimm.toNat) : decStack p k = .ok (k l spimm) := by
  cases l <;> simp only [decStack, h4, h2, RegList.code, BitVec.ofNat_toNat, BitVec.setWidth_eq]

theorem decode_encodeBytes_stack {f5 : Nat} {k : RegList → BitVec 2 → Instr} {l : RegList} {spimm : BitVec 2}
    (hi : encode (k l spimm) = encStack f5 l spimm) (h5 : f5 < 2 ^ 5)
    (hk : ∀ p, field p 8 5 = f5 → decZcmpZcmt p = decStack p k) :
    decode (encodeBytes (k l spimm)) = .ok (k l spimm) := by
  obtain ⟨hlt, f0, f13, f8, f4, f2⟩ := fields_encStack h5 l spimm
  rw [← hi] at hlt f0 f13 f8 f4 f2
  refine decode_encodeBytes_narrow (by decide) hlt f0 ?_
  rw [decode16_of_zcmp f0 f13, hk _ f8, decStack_code f4 f2]

theorem decSReg_code (r : SReg) : decSReg r.code = some r := by cases r <;> rfl

theorem fields_encMove {f2 : Nat} (h2 : f2 < 2 ^ 2) (r1 r2 : SReg) :
    encMove f2 r1 r2 < 2 ^ 16 ∧ field (encMove f2 r1 r2) 0 2 = 2 ∧ field (encMove f2 r1 r2) 13 3 = 5 ∧
      field (encMove f2 r1 r2) 8 5 = 12 ∧ field (encMove f2 r1 r2) 10 3 = 3 ∧ field (encMove f2 r1 r2) 5 2 = f2 ∧
      field (encMove f2 r1 r2) 7 3 = r1.code ∧ field (encMove f2 r1 r2) 2 3 = r2.code := by
  have h1 : r1.code < 2 := by cases r1 <;> decide
  have h2 : r2.code < 2 := by cases r2 <;> decide
  simp only [encMove]
  generalize r1.code = a, r2.code = b at *
  simp only [field]
  omega

theorem decode_encodeBytes_move {i : Instr} {f2 : Nat} {r1 r2 : SReg} (hi : encode i = encMove f2 r1 r2) (h2 : f2 < 2 ^ 2)
    (hd : ∀ p, field p 5 2 = f2 → (∀ k, withSRegs p k = k r1 r2) → decMove p = .ok i) : decode (encodeBytes i) = .ok i := by
  obtain ⟨hlt, f0, f13, f8, f10, f5, f7, f2'⟩ := fields_encMove h2 r1 r2
  rw [← hi] at hlt f0 f13 f8 f10 f5 f7 f2'
  refine decode_encodeBytes_narrow (by decide) hlt f0 ?_
  simp only [decode16_of_zcmp f0 f13, decZcmpZcmt, f8, f10]
  exact hd _ f5 fun k => by simp only [withSRegs, f7, f2', decSReg_code]

theorem fields_encTable {index : Nat} (h : index < 2 ^ 8) :
    encTable index < 2 ^ 16 ∧ field (encTable index) 0 2 = 2 ∧ field (encTable index) 13 3 = 5 ∧
      field (encTable index) 8 5 < 4 ∧ field (encTable index) 10 3 = 0 ∧ field (encTable index) 2 8 = index := by
  simp only [encTable, field]
  omega

/-- A word of the table jumps: bits [12:8] are those of no stack instruction. -/
theorem decZcmpZcmt_of_table {p : Nat} (h8 : field p 8 5 < 4) (h10 : field p 10 3 = 0) :
    decZcmpZcmt p = if field p 2 8 < 32 then .ok (.cmJt (BitVec.ofNat 5 (field p 2 8)))
      else .ok (.cmJalt (BitVec.ofNat 8 (field p 2 8))) := by
  unfold decZcmpZcmt
  split
  case h_5 => simp only [h10]
  all_goals omega

theorem decode_encodeBytes_cmJt (index : BitVec 5) : decode (encodeBytes (.cmJt index)) = .ok (.cmJt index) := by
  obtain ⟨hlt, f0, f13, f8, f10, f2⟩ := fields_encTable (index := index.toNat) (by omega)
  refine decode_encodeBytes_narrow (i := .cmJt index) (by decide) hlt f0 ?_
  rw [encode, decode16_of_zcmp f0 f13, decZcmpZcmt_of_table f8 f10, f2, if_pos index.isLt, ofNat_of_eq_toNat rfl]

theorem decode_encodeBytes_cmJalt {index : BitVec 8} (h : 32 ≤ index.toNat) :
    decode (encodeBytes (.cmJalt index)) = .ok (.cmJalt index) := by
  obtain ⟨hlt, f0, f13, f8, f10, f2⟩ := fields_encTable index.isLt
  refine decode_encodeBytes_narrow (i := .cmJalt index) (by decide) hlt f0 ?_
  rw [encode, decode16_of_zcmp f0 f13, decZcmpZcmt_of_table f8 f10, f2, if_neg (Nat.not_lt.mpr h), ofNat_of_eq_toNat rfl]

end Sys2Proof
end

section
/-!
Decoding the encoding of every instruction (30_encoding.md sections 1 to 4), format by format.
-/

namespace Sys2Proof

open Machine

/-! ## FENCE and the cpx operands -/

theorem decode_encodeBytes_fence (pred succ : BitVec 4) :
    decode (encodeBytes (.fence pred succ)) = .ok (.fence pred succ) := by
  have fields : encode (.fence pred succ) < 2 ^ 32 ∧ field (encode (.fence pred succ)) 0 7 = 0x0F ∧
      field (encode (.fence pred succ)) 12 3 = 0 ∧ field (encode (.fence pred succ)) 28 4 = 0 ∧
      field (encode (.fence pred succ)) 15 5 = 0 ∧ field (encode (.fence pred succ)) 7 5 = 0 ∧
      field (encode (.fence pred succ)) 24 4 = pred.toNat ∧ field (encode (.fence pred succ)) 20 4 = succ.toNat := by
    simp only [encode, field]
    omega
  obtain ⟨hlt, f0, f12, f28, f15, f7, f24, f20⟩ := fields
  refine decode_encodeBytes_wide (by decide) hlt f0 ?_
  simp only [decode32, f0, decFence, f12, f28, f15, f7, f24, f20, and_self, if_true, BitVec.ofNat_toNat,
    BitVec.setWidth_eq]

theorem reg_lt (r : Reg) : r.val < 2 ^ 5 := Nat.lt_trans r.isLt (by decide)

/-- The two pieces of a cpx immediate make it up. -/
theorem ofNat_cpxFields (uimm : BitVec 10) :
    BitVec.ofNat 10 (field uimm.toNat 5 5 * 2 ^ 5 + field uimm.toNat 0 5) = uimm := by
  refine ofNat_of_eq_toNat ?_
  simp only [field]
  omega

/-! ## A shift amount as a six-bit immediate -/

theorem setWidth_shamt (shamt : BitVec 5) : (shamt.setWidth 6).setWidth 5 = shamt :=
  BitVec.setWidth_setWidth_of_le shamt (by decide)

theorem toNat_shamt (shamt : BitVec 5) : (shamt.setWidth 6).toNat = shamt.toNat :=
  BitVec.toNat_setWidth_of_le (by decide)

theorem pos_and_lt_of_shamt {shamt : BitVec 5} (h : shamt ≠ 0) :
    0 < (shamt.setWidth 6).toNat ∧ (shamt.setWidth 6).toNat < 32 := by
  rw [toNat_shamt]
  exact ⟨Nat.pos_of_ne_zero (toNat_ne_zero h), shamt.isLt⟩

/-! ## Every instruction -/

/-- C.JR and C.JALR are the CR words whose second field is 0; bit 12 tells them apart. -/
theorem decode_encodeBytes_jumpRegister {f4 : Nat} {k : Reg → Instr} {rs1 : Reg} (hi : encode (k rs1) = encCr f4 rs1.val 0)
    (h4 : f4 / 2 = 4)
    (hk : ∀ p, field p 13 3 = 4 → field p 12 1 = f4 % 2 → field p 7 5 = rs1.val → field p 2 5 = (0 : Reg).val →
      decQ2 p = .ok (k rs1)) : decode (encodeBytes (k rs1)) = .ok (k rs1) := by
  obtain ⟨hlt, f0, f12, f7, f2⟩ := fields_encCr (f4 := f4) (by omega) rs1 0
  have hi : encode (k rs1) = encCr f4 rs1.val (0 : Reg).val := hi
  rw [← hi] at hlt f0 f12 f7 f2
  obtain ⟨h13, h12⟩ := fields_of_top4 f12
  refine decode_encodeBytes_narrow (by decide) hlt f0 ?_
  rw [decode16_quadrant2 f0, hk _ (h13.trans h4) h12 f7 f2]

/-- Settles O1: the fields of each format read back as the operands they were written from. -/
theorem decodeOfEncode : Obligations.DecodeOfEncode := by
  intro i hwf
  cases i
  case add | and | or | sll | slt | sltu | sra | srl | sub | xor | mul | mulh | mulhsu | mulhu | sh1add | sh2add | sh3add |
      andn | orn | xnor | max | maxu | min | minu | rol | ror | bclr | bext | binv | bset =>
    exact decode_encodeBytes_R rfl (by decide) (by decide) (by decide) fun w h0 h3 h7 => by
      simp only [decode32, h0, decOp, h7, h3]
  case zextH =>
    exact decode_encodeBytes_R2 rfl (by decide) (by decide) (by decide) fun w h0 h3 h7 h5 => by
      simp only [decode32, h0, decOp, h7, h3, h5, Nat.reducePow, Nat.reduceDiv, Nat.reduceMod, if_true]
  case clz | ctz | cpop | sextB | sextH =>
    exact decode_encodeBytes_R2 rfl (by decide) (by decide) (by decide) fun w h0 h3 h7 h5 => by
      simp only [decode32, h0, decOpImm, h3, decShiftLeft, h7, h5, Nat.reducePow, Nat.reduceDiv, Nat.reduceMod]
  case orcB | rev8 =>
    exact decode_encodeBytes_R2 rfl (by decide) (by decide) (by decide) fun w h0 h3 h7 h5 => by
      simp only [decode32, h0, decOpImm, h3, decShiftRight, h7, h5, Nat.reducePow, Nat.reduceDiv, Nat.reduceMod, if_true]
  case addi | andi | ori | slti | sltiu | xori =>
    exact decode_encodeBytes_I rfl (by decide) (by decide) fun w h0 h3 => by simp only [decode32, h0, decOpImm, h3]
  case slli | bclri | binvi | bseti =>
    exact decode_encodeBytes_shift rfl (by decide) (by decide) fun w h0 h3 h7 => by
      simp only [decode32, h0, decOpImm, h3, decShiftLeft, h7]
  case srai | srli | rori | bexti =>
    exact decode_encodeBytes_shift rfl (by decide) (by decide) fun w h0 h3 h7 => by
      simp only [decode32, h0, decOpImm, h3, decShiftRight, h7]
  case lb | lbu | lh | lhu | lw =>
    exact decode_encodeBytes_I rfl (by decide) (by decide) fun w h0 h3 => by simp only [decode32, h0, decLoad, h3]
  case jalr =>
    exact decode_encodeBytes_I rfl (by decide) (by decide) fun w h0 h3 => by simp only [decode32, h0, h3, if_true]
  case csrrc | csrrs | csrrw =>
    exact decode_encodeBytes_I rfl (by decide) (by decide) fun w h0 h3 => by simp only [decode32, h0, decSystem, h3, decCsr]
  case csrrci | csrrsi | csrrwi =>
    exact decode_encodeBytes_csrImm rfl (by decide) fun w h0 h3 => by simp only [decode32, h0, decSystem, h3]
  case sb | sh | sw =>
    exact decode_encodeBytes_S rfl (by decide) fun w h0 h3 => by simp only [decode32, h0, decStore, h3]
  case beq | bge | bgeu | blt | bltu | bne =>
    exact decode_encodeBytes_B rfl (by decide) fun w h0 h3 => by simp only [decode32, h0, decBranch, h3]
  case auipc | lui => exact decode_encodeBytes_U rfl (by decide) fun w h0 => by simp only [decode32, h0]
  case jal => exact decode_encodeBytes_jal ..
  case fence => exact decode_encodeBytes_fence ..
  case ebreak | ecall | fenceI | mret | wfi | cEbreak | cNop => decide
  case cpx0 =>
    exact decode_encodeBytes_cpx rfl ⟨by decide, by decide, field_lt .., field_lt ..⟩ fun w h12 h25 h30 h7 h15 h20 _ => by
      simp only [decCustom2, h12, h25, h30, h7, h15, h20, withReg_val, ofNat_cpxFields]
  case cpx1 =>
    exact decode_encodeBytes_cpx rfl (by decide) fun w h12 h25 h30 h7 h15 h20 _ => by
      simp only [decCustom2, h12, h25, h30, h7, h15, h20, withReg_val, and_self, if_true]
  case cpx2 rd _ uimm =>
    exact decode_encodeBytes_cpx rfl ⟨by decide, by decide, reg_lt rd, uimm.isLt⟩ fun w h12 h25 h30 h7 h15 h20 _ => by
      simp only [decCustom2, h12, h25, h30, h7, h15, h20, withReg_val, BitVec.ofNat_toNat, BitVec.setWidth_eq]
  case cpx3 rd _ =>
    exact decode_encodeBytes_cpx rfl ⟨by decide, by decide, reg_lt rd, by decide⟩ fun w h12 h25 h30 h7 h15 h20 _ => by
      simp only [decCustom2, h12, h25, h30, h7, h15, h20, withReg_val, if_true]
  case cpx4 rs2 uimm =>
    exact decode_encodeBytes_cpx rfl ⟨by decide, by decide, uimm.isLt, reg_lt rs2⟩ fun w h12 h25 h30 h7 h15 h20 _ => by
      simp only [decCustom2, h12, h25, h30, h7, h15, h20, withReg_val, BitVec.ofNat_toNat, BitVec.setWidth_eq]
  case cpx5 rs2 =>
    exact decode_encodeBytes_cpx rfl ⟨by decide, by decide, by decide, reg_lt rs2⟩ fun w h12 h25 h30 h7 h15 h20 _ => by
      simp only [decCustom2, h12, h25, h30, h7, h15, h20, withReg_val, if_true]
  case cpx6 rd _ rs2 =>
    exact decode_encodeBytes_cpx rfl ⟨by decide, by decide, reg_lt rd, reg_lt rs2⟩ fun w h12 h25 h30 h7 h15 h20 _ => by
      simp only [decCustom2, h12, h25, h30, h7, h15, h20, withReg_val]
  case cpx9 rd _ uimm =>
    exact decode_encodeBytes_cpx rfl ⟨field_lt .., by decide, reg_lt rd, field_lt ..⟩
      fun w h12 h25 h30 h7 h15 _ htop => by
        simp only [decCustom2, h12, h30, h7, h15, htop, withReg_val, ofNat_cpxFields]
  all_goals simp only [Instr.wf, Bool.and_eq_true, bne_iff_ne, ne_eq, decide_eq_true_eq] at hwf
  case cAddi => exact decode_encodeBytes_Ci (encodedCi_of_reads (by decide) readsCi_cAddi) hwf rfl (by decide) (by decide)
  case cLi => exact decode_encodeBytes_Ci (encodedCi_of_reads (by decide) readsCi_cLi) hwf rfl (by decide) (by decide)
  case cLui =>
    obtain ⟨⟨hrd, hrd2⟩, himm⟩ := hwf
    exact decode_encodeBytes_Ci (encodedCi_of_reads (by decide) readsCi_cLui) ⟨hrd, hrd2, himm⟩ rfl (by decide) (by decide)
  case cSlli rd shamt =>
    obtain ⟨hrd, hshamt⟩ := hwf
    have read := decode_encodeBytes_Ci (encodedCi_of_reads (by decide) readsCi_cSlli) ⟨hrd, pos_and_lt_of_shamt hshamt⟩
      (by simp only [encode, setWidth_shamt, toNat_shamt]) (by decide) (by decide)
    rwa [setWidth_shamt] at read
  case cSrli rd shamt =>
    have read := decode_encodeBytes_CbAlu (rd := rd) (encodedCbAlu_of_reads readsCbAlu_cSrli) (pos_and_lt_of_shamt hwf)
      (by simp only [encode, setWidth_shamt, toNat_shamt]) (by decide)
    rwa [setWidth_shamt] at read
  case cSrai rd shamt =>
    have read := decode_encodeBytes_CbAlu (rd := rd) (encodedCbAlu_of_reads readsCbAlu_cSrai) (pos_and_lt_of_shamt hwf)
      (by simp only [encode, setWidth_shamt, toNat_shamt]) (by decide)
    rwa [setWidth_shamt] at read
  case cAndi =>
    exact decode_encodeBytes_CbAlu (encodedCbAlu_of_reads readsCbAlu_cAndi) trivial rfl (by decide)
  case cAdd =>
    obtain ⟨hrd, hrs2⟩ := hwf
    exact decode_encodeBytes_Cr encodedCr_cAdd hrd hrs2 rfl (by decide)
  case cMv =>
    obtain ⟨hrd, hrs2⟩ := hwf
    exact decode_encodeBytes_Cr encodedCr_cMv hrd hrs2 rfl (by decide)
  case cJr =>
    exact decode_encodeBytes_jumpRegister rfl (by decide) fun p h13 h12 h7 h2 => by
      rw [decQ2, h13, h7, h2]
      simp only [withReg_val, h12, hwf, if_true, if_false]
  case cJalr =>
    exact decode_encodeBytes_jumpRegister rfl (by decide) fun p h13 h12 h7 h2 => by
      rw [decQ2, h13, h7, h2]
      simp only [withReg_val, h12, hwf, Nat.reduceMod, one_ne_zero, if_true, if_false]
  case cAddi4spn => exact decode_encodeBytes_cAddi4spn hwf
  case cAddi16sp => exact decode_encodeBytes_cAddi16sp hwf
  case cSub => exact decode_encodeBytes_Ca encodedCa_cSub rfl (by decide) (by decide)
  case cXor => exact decode_encodeBytes_Ca encodedCa_cXor rfl (by decide) (by decide)
  case cOr => exact decode_encodeBytes_Ca encodedCa_cOr rfl (by decide) (by decide)
  case cAnd => exact decode_encodeBytes_Ca encodedCa_cAnd rfl (by decide) (by decide)
  case cMul => exact decode_encodeBytes_Ca encodedCa_cMul rfl (by decide) (by decide)
  case cZextB => exact decode_encodeBytes_Cu encodedCu_cZextB rfl (by decide)
  case cSextB => exact decode_encodeBytes_Cu encodedCu_cSextB rfl (by decide)
  case cZextH => exact decode_encodeBytes_Cu encodedCu_cZextH rfl (by decide)
  case cSextH => exact decode_encodeBytes_Cu encodedCu_cSextH rfl (by decide)
  case cNot => exact decode_encodeBytes_Cu encodedCu_cNot rfl (by decide)
  case cJ | cJal => exact decode_encodeBytes_Cj rfl (by decide) fun p h13 => by simp only [decQ1, h13]
  case cBeqz | cBnez => exact decode_encodeBytes_Cb rfl (by decide) fun p h13 => by simp only [decQ1, h13]
  case cLw | cSw => exact decode_encodeBytes_Clw rfl (by decide) fun p h13 => by simp only [decQ0, h13]
  case cLwsp => exact decode_encodeBytes_cLwsp hwf
  case cSwsp => exact decode_encodeBytes_cSwsp ..
  case cLbu | cSb =>
    exact decode_encodeBytes_Zcb rfl (by decide) (encByteImm_lt _) fun p h13 h10 h2 h7 h6 h5 => by
      simp only [decQ0, h13, h10, h2, h7, zcbByteImm_of_fields h6 h5, Nat.reduceDiv, Nat.reduceMod]
  case cLhu imm | cSh imm =>
    have hlt := imm.isLt
    exact decode_encodeBytes_Zcb rfl (by decide) (by omega) fun p h13 h10 h2 h7 h6 h5 => by
      have h6 : field p 6 1 = 0 := by omega
      have h5 : field p 5 1 = imm.toNat := by omega
      simp only [decQ0, h13, h10, h2, h7, h6, h5, Nat.reduceDiv, Nat.reduceMod, BitVec.ofNat_toNat, BitVec.setWidth_eq]
  case cLh imm =>
    have hlt := imm.isLt
    exact decode_encodeBytes_Zcb rfl (by decide) (by omega) fun p h13 h10 h2 h7 h6 h5 => by
      have h6 : field p 6 1 = 1 := by omega
      have h5 : field p 5 1 = imm.toNat := by omega
      simp only [decQ0, h13, h10, h2, h7, h6, h5, Nat.reduceDiv, Nat.reduceMod, BitVec.ofNat_toNat, BitVec.setWidth_eq]
  case cmPush | cmPop | cmPopretz | cmPopret =>
    exact decode_encodeBytes_stack rfl (by decide) fun p h8 => by simp only [decZcmpZcmt, h8]
  case cmMvsa01 =>
    exact decode_encodeBytes_move rfl (by decide) fun p h5 hk => by simp only [decMove, h5, hk, hwf, if_false]
  case cmMva01s => exact decode_encodeBytes_move rfl (by decide) fun p h5 hk => by simp only [decMove, h5, hk]
  case cmJt => exact decode_encodeBytes_cmJt ..
  case cmJalt => exact decode_encodeBytes_cmJalt hwf

end Sys2Proof
end

section
/-!
Bytes that decode to an instruction are its encoding (30_encoding.md sections 1 to 4): the 16-bit decoder, field by field, and
with the 32-bit one every list of bytes.
-/

namespace Sys2Proof

open Machine

/-! ## Fields that are read and written back -/

/-- The byte offset's two bits, written back. -/
theorem encByteImm_of_bits {a b : Nat} (ha : a < 2) (hb : b < 2) : encByteImm (BitVec.ofNat 2 (a * 2 + b)) = b * 2 + a := by
  interval_cases a <;> interval_cases b <;> rfl

theorem encByteImm_zcbByteImm (p : Nat) : field p 5 2 = encByteImm (BitVec.ofNat 2 (zcbByteImm p)) := by
  rw [zcbByteImm, encByteImm_of_bits (field_lt p 5 1) (field_lt p 6 1)]
  simp only [field]
  omega

theorem code_of_decSReg {n : Nat} {r : SReg} (h : decSReg n = some r) : n = r.code := by
  unfold decSReg at h
  split at h <;> cases h <;> rfl

theorem withSRegs_ok {p : Nat} {i : Instr} {k : SReg → SReg → Except Reject Instr} (h : withSRegs p k = .ok i) :
    ∃ r1 r2 : SReg, field p 7 3 = r1.code ∧ field p 2 3 = r2.code ∧ k r1 r2 = .ok i := by
  unfold withSRegs at h
  split at h
  case h_1 r1 r2 h1 h2 => exact ⟨r1, r2, code_of_decSReg h1, code_of_decSReg h2, h⟩
  case h_2 => cases h

theorem ofNat_ne_zero {n k : Nat} (h : k < 2 ^ n) (h0 : k ≠ 0) : BitVec.ofNat n k ≠ 0 := fun hz =>
  h0 (by rw [← toNat_ofNat_of_lt h, hz]; rfl)

/-- The six-bit field of a shift amount: its bit 12 is 0. -/
theorem ciImm_of_shamt {p : Nat} (h12 : field p 12 1 = 0) : ciImm p = (BitVec.ofNat 5 (field p 2 5)).toNat := by
  rw [toNat_ofNat_of_lt (field_lt ..), ciImm, h12, Nat.zero_mul, Nat.zero_add]

/-! ## The 16-bit formats write back what they read -/

section
variable {p : Nat} {i : Instr} (hp : p < 2 ^ 16)
include hp

theorem encodes_Ci {f3 op : Nat} {rd : Reg} (h0 : field p 0 2 = op) (h13 : field p 13 3 = f3) (h7 : field p 7 5 = rd.val)
    (hwf : i.wf = true) (hi : encode i = encCi f3 op rd.val (ciImm p)) : Encodes i p := by
  obtain ⟨h5, h0'⟩ := fields_ciImm p
  refine ⟨hwf, ?_⟩
  rw [hi, encCi, h5, h0', ← h0, ← h13, ← h7]
  simp only [field]
  omega

theorem encodes_Cr {f4 : Nat} {rd rs2 : Reg} (h0 : field p 0 2 = 2) (h12 : field p 12 4 = f4) (h7 : field p 7 5 = rd.val)
    (h2 : field p 2 5 = rs2.val) (hwf : i.wf = true) (hi : encode i = encCr f4 rd.val rs2.val) : Encodes i p := by
  refine ⟨hwf, ?_⟩
  rw [hi, encCr, ← h12, ← h7, ← h2]
  simp only [field] at h0 ⊢
  omega

theorem encodes_CbAlu {f2 : Nat} (h0 : field p 0 2 = 1) (h13 : field p 13 3 = 4) (h10 : field p 10 2 = f2)
    (hwf : i.wf = true) (hi : encode i = encCbAlu f2 (cregAt p 7) (ciImm p)) : Encodes i p := by
  obtain ⟨h5, h0'⟩ := fields_ciImm p
  refine ⟨hwf, ?_⟩
  rw [hi, encCbAlu, h5, h0', cregAt_val, ← h10]
  simp only [field] at h0 h13 ⊢
  omega

theorem encodes_Ca {f6 f2 : Nat} (h0 : field p 0 2 = 1) (h10 : field p 10 6 = f6) (h5 : field p 5 2 = f2)
    (hwf : i.wf = true) (hi : encode i = encCa f6 f2 (cregAt p 7) (cregAt p 2)) : Encodes i p := by
  refine ⟨hwf, ?_⟩
  rw [hi, encCa, cregAt_val, cregAt_val, ← h10, ← h5]
  simp only [field] at h0 ⊢
  omega

theorem encodes_Cu {f3 : Nat} (h0 : field p 0 2 = 1) (h10 : field p 10 6 = 39) (h5 : field p 5 2 = 3)
    (h2 : field p 2 3 = f3) (hwf : i.wf = true) (hi : encode i = encCu f3 (cregAt p 7)) : Encodes i p := by
  refine ⟨hwf, ?_⟩
  rw [hi, encCu, cregAt_val, ← h2]
  simp only [field] at h0 h10 h5 ⊢
  omega

theorem encodes_Cj {f3 : Nat} (h0 : field p 0 2 = 1) (h13 : field p 13 3 = f3) (hwf : i.wf = true)
    (hi : encode i = encCj f3 (BitVec.ofNat 11 (cjImm p))) : Encodes i p := by
  obtain ⟨hlt, h10, h9, h7, h6, h5, h4, h3, h0'⟩ := fields_cjImm p
  refine ⟨hwf, ?_⟩
  have low : field p 7 1 * 2 ^ 7 + field p 6 1 * 2 ^ 6 + field p 3 3 * 2 ^ 3 + field p 2 1 * 2 ^ 2 + 1 = p % 2 ^ 8 := by
    simp only [field] at h0 ⊢
    omega
  have high : field p 13 3 * 2 ^ 13 + field p 12 1 * 2 ^ 12 + field p 11 1 * 2 ^ 11 + field p 9 2 * 2 ^ 9
      + field p 8 1 * 2 ^ 8 = p / 2 ^ 8 * 2 ^ 8 := by
    simp only [field]
    omega
  rw [hi, encCj, toNat_ofNat_of_lt hlt, h10, h9, h7, h6, h5, h4, h3, h0', ← h13]
  linarith [Nat.div_add_mod' p (2 ^ 8)]

theorem encodes_Cb {f3 : Nat} (h0 : field p 0 2 = 1) (h13 : field p 13 3 = f3) (hwf : i.wf = true)
    (hi : encode i = encCb f3 (cregAt p 7) (BitVec.ofNat 8 (cbImm p))) : Encodes i p := by
  obtain ⟨hlt, h7, h5, h4, h2, h0'⟩ := fields_cbImm p
  refine ⟨hwf, ?_⟩
  rw [hi, encCb, toNat_ofNat_of_lt hlt, h7, h5, h4, h2, h0', cregAt_val, ← h13]
  simp only [field] at h0 ⊢
  omega

theorem encodes_Clw {f3 : Nat} (h0 : field p 0 2 = 0) (h13 : field p 13 3 = f3) (hwf : i.wf = true)
    (hi : encode i = encClw f3 (cregAt p 2) (cregAt p 7) (BitVec.ofNat 5 (clwImm p))) : Encodes i p := by
  obtain ⟨hlt, h4, h1, h0'⟩ := fields_clwImm p
  refine ⟨hwf, ?_⟩
  rw [hi, encClw, toNat_ofNat_of_lt hlt, h4, h1, h0', cregAt_val, cregAt_val, ← h13]
  simp only [field] at h0 ⊢
  omega

theorem encodes_Zcb {f6 two : Nat} (h0 : field p 0 2 = 0) (h13 : field p 13 3 = 4) (h10 : 32 + field p 10 3 = f6)
    (h5 : field p 5 2 = two) (hwf : i.wf = true) (hi : encode i = encZcb f6 two (cregAt p 2) (cregAt p 7)) : Encodes i p := by
  refine ⟨hwf, ?_⟩
  rw [hi, encZcb, cregAt_val, cregAt_val, ← h10, ← h5]
  simp only [field] at h0 h13 ⊢
  omega

theorem encodes_stack {f5 : Nat} {k : RegList → BitVec 2 → Instr} (h : decStack p k = .ok i) (h0 : field p 0 2 = 2)
    (h13 : field p 13 3 = 5) (h8 : field p 8 5 = f5)
    (hk : ∀ l spimm, Encodes (k l spimm) (encStack f5 l spimm)) : Encodes i p := by
  have word : ∀ l : RegList, field p 4 4 = l.code → encStack f5 l (BitVec.ofNat 2 (field p 2 2)) = p := fun l h4 => by
    rw [encStack, toNat_ofNat_of_lt (field_lt ..), ← h4, ← h8]
    simp only [field] at h0 h13 ⊢
    omega
  unfold decStack at h
  dsimp only at h
  split at h
  case h_1 h4 => cases h; exact (hk _ _).of_eq (word .ra h4)
  case h_2 h4 => cases h; exact (hk _ _).of_eq (word .raS0 h4)
  case h_3 h4 => cases h; exact (hk _ _).of_eq (word .raS0S1 h4)
  case h_4 => cases h

theorem encodes_move {f2 : Nat} {r1 r2 : SReg} (h0 : field p 0 2 = 2) (h13 : field p 13 3 = 5) (h10 : field p 10 3 = 3)
    (h5 : field p 5 2 = f2) (h7 : field p 7 3 = r1.code) (h2 : field p 2 3 = r2.code) (hwf : i.wf = true)
    (hi : encode i = encMove f2 r1 r2) : Encodes i p := by
  refine ⟨hwf, ?_⟩
  rw [hi, encMove, ← h5, ← h7, ← h2]
  simp only [field] at h0 h13 h10 ⊢
  omega

theorem encodes_table (h0 : field p 0 2 = 2) (h13 : field p 13 3 = 5) (h10 : field p 10 3 = 0) (hwf : i.wf = true)
    (hi : encode i = encTable (field p 2 8)) : Encodes i p := by
  refine ⟨hwf, ?_⟩
  rw [hi, encTable]
  simp only [field] at h0 h13 h10 ⊢
  omega

/-! ## The 16-bit decoder writes back what it reads -/

theorem encodes_cAddi4spn (h0 : field p 0 2 = 0) (h13 : field p 13 3 = 0) (hne : addi4spnImm p ≠ 0) :
    Encodes (.cAddi4spn (cregAt p 2) (BitVec.ofNat 8 (addi4spnImm p))) p := by
  obtain ⟨hlt, h4, h2, h1, h0'⟩ := fields_addi4spnImm p
  refine ⟨bne_iff_ne.mpr (ofNat_ne_zero hlt hne), ?_⟩
  rw [encode, toNat_ofNat_of_lt hlt, h4, h2, h1, h0', cregAt_val]
  simp only [field] at h0 h13 ⊢
  omega

theorem encodes_cAddi16sp (h0 : field p 0 2 = 1) (h13 : field p 13 3 = 3) (h7 : field p 7 5 = 2) (hne : ciImm p ≠ 0) :
    Encodes (.cAddi16sp (BitVec.ofNat 6 (addi16spImm p))) p := by
  obtain ⟨hlt, h5, h3, h2, h1, h0'⟩ := fields_addi16spImm p
  refine ⟨bne_iff_ne.mpr (ofNat_ne_zero hlt (mt (addi16spImm_eq_zero_iff p).mp hne)), ?_⟩
  rw [encode, toNat_ofNat_of_lt hlt, h5, h3, h2, h1, h0']
  simp only [field] at h0 h13 h7 ⊢
  omega

theorem encodes_cLwsp {rd : Reg} (h0 : field p 0 2 = 2) (h13 : field p 13 3 = 2) (h7 : field p 7 5 = rd.val)
    (hrd : rd ≠ 0) : Encodes (.cLwsp rd (BitVec.ofNat 6 (clwspImm p))) p := by
  obtain ⟨hlt, h4, h3, h0'⟩ := fields_clwspImm p
  refine ⟨bne_iff_ne.mpr hrd, ?_⟩
  rw [encode, toNat_ofNat_of_lt hlt, h4, h3, h0', ← h7]
  simp only [field] at h0 h13 ⊢
  omega

theorem encodes_cSwsp {rs2 : Reg} (h0 : field p 0 2 = 2) (h13 : field p 13 3 = 6) (h2 : field p 2 5 = rs2.val) :
    Encodes (.cSwsp rs2 (BitVec.ofNat 6 (cswspImm p))) p := by
  obtain ⟨hlt, h4, h0'⟩ := fields_cswspImm p
  refine ⟨rfl, ?_⟩
  rw [encode, toNat_ofNat_of_lt hlt, h4, h0', ← h2]
  simp only [field] at h0 h13 ⊢
  omega

theorem encodes_of_decQ0 (h : decQ0 p = .ok i) (h0 : field p 0 2 = 0) : Encodes i p := by
  unfold decQ0 at h
  dsimp only at h
  split at h
  case h_1 h13 =>
    split at h
    · cases h
    split at h
    · cases h
    · rename_i hne
      cases h
      exact encodes_cAddi4spn hp h0 h13 hne
  case h_2 h13 => cases h; exact encodes_Clw hp h0 h13 rfl rfl
  case h_3 h13 =>
    have bits : field p 5 2 = field p 6 1 * 2 + field p 5 1 := by
      simp only [field]
      omega
    have half : (BitVec.ofNat 1 (field p 5 1)).toNat = field p 5 1 := toNat_ofNat_of_lt (field_lt ..)
    split at h
    case h_1 h10 =>
      cases h
      exact encodes_Zcb hp h0 h13 (congrArg _ h10) (encByteImm_zcbByteImm p) rfl rfl
    case h_2 h10 h6 =>
      cases h
      exact encodes_Zcb hp h0 h13 (congrArg _ h10) (by rw [bits, h6, half, Nat.zero_mul, Nat.zero_add]) rfl rfl
    case h_3 h10 h6 =>
      cases h
      have h6 : field p 6 1 = 1 := by
        have := field_lt p 6 1
        simp only [imp_false] at h6
        omega
      exact encodes_Zcb hp h0 h13 (congrArg _ h10) (by rw [bits, h6, half]) rfl rfl
    case h_4 h10 =>
      cases h
      exact encodes_Zcb hp h0 h13 (congrArg _ h10) (encByteImm_zcbByteImm p) rfl rfl
    case h_5 h10 h6 =>
      cases h
      exact encodes_Zcb hp h0 h13 (congrArg _ h10) (by rw [bits, h6, half, Nat.zero_mul, Nat.zero_add]) rfl rfl
    case h_6 => cases h
  case h_4 h13 => cases h; exact encodes_Clw hp h0 h13 rfl rfl
  case h_5 => cases h

theorem encodes_of_decQ1Alu (h : decQ1Alu p = .ok i) (h0 : field p 0 2 = 1) (h13 : field p 13 3 = 4) : Encodes i p := by
  have top : field p 10 6 = 32 + field p 12 1 * 4 + field p 10 2 := by
    simp only [field] at h13 ⊢
    omega
  unfold decQ1Alu at h
  dsimp only at h
  split at h
  case h_1 h10 | h_2 h10 =>
    split at h
    · rename_i hs
      obtain ⟨h12, hne⟩ := hs
      cases h
      exact encodes_CbAlu hp h0 h13 h10 (bne_iff_ne.mpr (ofNat_ne_zero (field_lt ..) hne))
        (by rw [encode, ciImm_of_shamt h12])
    · cases h
  case h_3 h10 =>
    cases h
    exact encodes_CbAlu hp h0 h13 h10 rfl (by rw [encode, toNat_ofNat_of_lt (ciImm_lt p)])
  case h_4 n0 n1 n2 =>
    simp only [imp_false] at n0 n1 n2
    have h10 : field p 10 2 = 3 := by
      have := field_lt p 10 2
      omega
    have one_of_ne (hne : ¬ field p 12 1 = 0) : field p 12 1 = 1 := by
      have := field_lt p 12 1
      omega
    split at h
    case h_1 h12 h5 | h_2 h12 h5 | h_3 h12 h5 =>
      cases h
      exact encodes_Ca hp h0 (by rw [top, h12, h10]) h5 rfl rfl
    case h_4 h12 m0 m1 m2 =>
      simp only [imp_false] at m0 m1 m2
      have h5 : field p 5 2 = 3 := by
        have := field_lt p 5 2
        omega
      cases h
      exact encodes_Ca hp h0 (by rw [top, h12, h10]) h5 rfl rfl
    case h_5 h5 m0 =>
      simp only [imp_false] at m0
      cases h
      exact encodes_Ca hp h0 (by rw [top, one_of_ne m0, h10]) h5 rfl rfl
    case h_6 h5 m0 =>
      simp only [imp_false] at m0
      have h10 : field p 10 6 = 39 := by rw [top, one_of_ne m0, h10]
      split at h
      case h_6 => cases h
      all_goals cases h; exact encodes_Cu hp h0 h10 h5 (by assumption) rfl rfl
    case h_7 => cases h

theorem encodes_of_decQ1 (h : decQ1 p = .ok i) (h0 : field p 0 2 = 1) : Encodes i p := by
  have hci : (BitVec.ofNat 6 (ciImm p)).toNat = ciImm p := toNat_ofNat_of_lt (ciImm_lt p)
  have ci_ne (hne : ciImm p ≠ 0) : (BitVec.ofNat 6 (ciImm p) != 0) = true :=
    bne_iff_ne.mpr (ofNat_ne_zero (ciImm_lt p) hne)
  unfold decQ1 at h
  split at h
  case h_1 h13 =>
    obtain ⟨rd, h7, h⟩ := withReg_ok h
    split at h
    · rename_i hz
      obtain ⟨hrd, hzero⟩ := hz
      cases h
      subst hrd
      exact encodes_Ci hp h0 h13 h7 rfl (by rw [hzero]; rfl)
    split at h
    · cases h
    · rename_i hne
      obtain ⟨hrd, hne⟩ := not_or.mp hne
      cases h
      exact encodes_Ci hp h0 h13 h7 (Bool.and_eq_true_iff.mpr ⟨bne_iff_ne.mpr hrd, ci_ne hne⟩) (by rw [encode, hci])
  case h_2 h13 => cases h; exact encodes_Cj hp h0 h13 rfl rfl
  case h_3 h13 =>
    obtain ⟨rd, h7, h⟩ := withReg_ok h
    split at h
    · cases h
    · rename_i hrd
      cases h
      exact encodes_Ci hp h0 h13 h7 (bne_iff_ne.mpr hrd) (by rw [encode, hci])
  case h_4 h13 =>
    obtain ⟨rd, h7, h⟩ := withReg_ok h
    split at h
    · cases h
    rename_i hne
    obtain ⟨hne, hrd⟩ := not_or.mp hne
    split at h
    · rename_i hrd2
      cases h
      exact encodes_cAddi16sp hp h0 h13 (h7.trans (congrArg _ hrd2)) hne
    · rename_i hrd2
      cases h
      refine encodes_Ci hp h0 h13 h7 ?_ (by rw [encode, hci])
      exact Bool.and_eq_true_iff.mpr
        ⟨Bool.and_eq_true_iff.mpr ⟨bne_iff_ne.mpr hrd, bne_iff_ne.mpr hrd2⟩, ci_ne hne⟩
  case h_5 h13 => exact encodes_of_decQ1Alu hp h h0 h13
  case h_6 h13 => cases h; exact encodes_Cj hp h0 h13 rfl rfl
  case h_7 h13 => cases h; exact encodes_Cb hp h0 h13 rfl rfl
  case h_8 n0 n1 n2 n3 n4 n5 n6 =>
    have h13 : field p 13 3 = 7 := by
      have := field_lt p 13 3
      simp only [imp_false] at n0 n1 n2 n3 n4 n5 n6
      omega
    cases h
    exact encodes_Cb hp h0 h13 rfl rfl

theorem encodes_of_decMove (h : decMove p = .ok i) (h0 : field p 0 2 = 2) (h13 : field p 13 3 = 5)
    (h10 : field p 10 3 = 3) : Encodes i p := by
  unfold decMove at h
  split at h
  case h_1 h5 =>
    obtain ⟨r1, r2, h7, h2, h⟩ := withSRegs_ok h
    split at h
    · cases h
    · rename_i hne
      cases h
      exact encodes_move hp h0 h13 h10 h5 h7 h2 (bne_iff_ne.mpr hne) rfl
  case h_2 h5 =>
    obtain ⟨r1, r2, h7, h2, h⟩ := withSRegs_ok h
    cases h
    exact encodes_move hp h0 h13 h10 h5 h7 h2 rfl rfl
  case h_3 => cases h

theorem encodes_of_decZcmpZcmt (h : decZcmpZcmt p = .ok i) (h0 : field p 0 2 = 2) (h13 : field p 13 3 = 5) :
    Encodes i p := by
  unfold decZcmpZcmt at h
  split at h
  case h_5 =>
    split at h
    case h_1 h10 =>
      split at h
      · rename_i hlt
        cases h
        exact encodes_table hp h0 h13 h10 rfl (by rw [encode, toNat_ofNat_of_lt (by omega)])
      · rename_i hge
        have hval := toNat_ofNat_of_lt (field_lt p 2 8)
        cases h
        exact encodes_table hp h0 h13 h10 (decide_eq_true (by rw [hval]; omega)) (by rw [encode, hval])
    case h_2 h10 => exact encodes_of_decMove hp h h0 h13 h10
    case h_3 => cases h
  all_goals exact encodes_stack hp h h0 h13 (by assumption) fun _ _ => ⟨rfl, rfl⟩

/-- The words of funct3 100 in quadrant 10: a move, an addition, a jump through a register, or C.EBREAK. -/
theorem encodes_of_registers (h : decQ2 p = .ok i) (h0 : field p 0 2 = 2) (h13 : field p 13 3 = 4) : Encodes i p := by
  simp only [decQ2, h13] at h
  obtain ⟨rd, h7, inner⟩ := withReg_ok h
  clear h
  obtain ⟨rs2, h2, h⟩ := withReg_ok inner
  clear inner
  have top : field p 12 4 = 8 + field p 12 1 := by
    simp only [field] at h13 ⊢
    omega
  split at h
  · rename_i h12
    rw [h12] at top
    split at h
    · rename_i hrs2
      subst hrs2
      split at h
      · cases h
      · rename_i hrd
        cases h
        exact encodes_Cr hp h0 top h7 h2 (bne_iff_ne.mpr hrd) rfl
    · rename_i hrs2
      split at h
      · cases h
      · rename_i hrd
        cases h
        exact encodes_Cr hp h0 top h7 h2 (Bool.and_eq_true_iff.mpr ⟨bne_iff_ne.mpr hrd, bne_iff_ne.mpr hrs2⟩) rfl
  · rename_i h12
    have top : field p 12 4 = 9 := by
      have := field_lt p 12 1
      omega
    split at h
    · rename_i hrs2
      subst hrs2
      split at h
      · rename_i hrd
        subst hrd
        cases h
        exact encodes_Cr hp h0 top h7 h2 rfl rfl
      · rename_i hrd
        cases h
        exact encodes_Cr hp h0 top h7 h2 (bne_iff_ne.mpr hrd) rfl
    · rename_i hrs2
      split at h
      · cases h
      · rename_i hrd
        cases h
        exact encodes_Cr hp h0 top h7 h2 (Bool.and_eq_true_iff.mpr ⟨bne_iff_ne.mpr hrd, bne_iff_ne.mpr hrs2⟩) rfl

theorem encodes_of_decQ2 (h : decQ2 p = .ok i) (h0 : field p 0 2 = 2) : Encodes i p := by
  have whole := h
  unfold decQ2 at h
  split at h
  case h_1 h13 =>
    obtain ⟨rd, h7, h⟩ := withReg_ok h
    split at h
    · cases h
    · rename_i hne
      obtain ⟨hrd, hne⟩ := not_or.mp hne
      obtain ⟨h12, hne⟩ := not_or.mp hne
      cases h
      refine encodes_Ci hp h0 h13 h7 ?_ (by rw [encode, ciImm_of_shamt (not_not.mp h12)])
      exact Bool.and_eq_true_iff.mpr ⟨bne_iff_ne.mpr hrd, bne_iff_ne.mpr (ofNat_ne_zero (field_lt ..) hne)⟩
  case h_2 h13 =>
    obtain ⟨rd, h7, h⟩ := withReg_ok h
    split at h
    · cases h
    · rename_i hrd
      cases h
      exact encodes_cLwsp hp h0 h13 h7 hrd
  case h_3 h13 => exact encodes_of_registers hp whole h0 h13
  case h_4 h13 => exact encodes_of_decZcmpZcmt hp h h0 h13
  case h_5 h13 =>
    obtain ⟨rs2, h2, h⟩ := withReg_ok h
    cases h
    exact encodes_cSwsp hp h0 h13 h2
  case h_6 => cases h

/-- What the 16-bit decoder answers is well-formed, and its encoding is the parcel. -/
theorem encodes_of_decode16 (h : decode16 p = .ok i) (h3 : p % 4 ≠ 3) : Encodes i p := by
  unfold decode16 at h
  split at h
  case h_1 h0 => exact encodes_of_decQ0 hp h h0
  case h_2 h0 => exact encodes_of_decQ1 hp h h0
  case h_3 n0 n1 =>
    have h0 : field p 0 2 = 2 := by
      simp only [imp_false, field] at n0 n1 ⊢
      omega
    exact encodes_of_decQ2 hp h h0

end

/-! ## Every list of bytes -/

theorem leBytes_two (b0 b1 : Byte) : leBytes 2 (parcel b0 b1) = [b0, b1] := by
  have h0 := b0.isLt
  have h1 := b1.isLt
  have low : BitVec.ofNat 8 (parcel b0 b1) = b0 := by
    refine BitVec.eq_of_toNat_eq ?_
    rw [BitVec.toNat_ofNat, parcel]
    omega
  have high : parcel b0 b1 / 2 ^ 8 = b1.toNat := by
    rw [parcel]
    omega
  simp only [leBytes, low, high, BitVec.ofNat_toNat, BitVec.setWidth_eq]

theorem parcel_lt (b0 b1 : Byte) : parcel b0 b1 < 2 ^ 16 := by
  rw [parcel]
  omega

theorem leBytes_four (b0 b1 b2 b3 : Byte) : leBytes 4 (parcel b0 b1 + parcel b2 b3 * 2 ^ 16) = [b0, b1, b2, b3] := by
  have h0 := b0.isLt
  have h1 := b1.isLt
  have low : BitVec.ofNat 8 (parcel b0 b1 + parcel b2 b3 * 2 ^ 16) = b0 := by
    refine BitVec.eq_of_toNat_eq ?_
    rw [BitVec.toNat_ofNat, parcel]
    omega
  have next : BitVec.ofNat 8 ((parcel b0 b1 + parcel b2 b3 * 2 ^ 16) / 2 ^ 8) = b1 := by
    refine BitVec.eq_of_toNat_eq ?_
    rw [BitVec.toNat_ofNat, parcel]
    omega
  have high : (parcel b0 b1 + parcel b2 b3 * 2 ^ 16) / 2 ^ 8 / 2 ^ 8 = parcel b2 b3 := by
    have := parcel_lt b0 b1
    omega
  have rest := leBytes_two b2 b3
  rw [leBytes, leBytes, low, next, high, rest]

/-- Settles O2: the parcel or word that was read is the encoding, and its bytes are those it was read from. -/
theorem encodeOfDecode : Obligations.EncodeOfDecode := by
  intro l i h
  unfold decode at h
  split at h
  case h_2 => cases h
  case h_1 b0 b1 rest =>
    split at h
    · rename_i h3
      obtain ⟨hwf, henc⟩ := encodes_of_decode16 (parcel_lt b0 b1) h h3
      have hlen : i.length = 2 := by rw [Instr.length, henc, if_neg h3]
      exact ⟨hwf, by rw [encodeBytes, hlen, henc, leBytes_two]; rfl⟩
    rename_i h3
    split at h
    · cases h
    split at h
    · rename_i b2 b3 tail
      have lt0 := parcel_lt b0 b1
      have lt2 := parcel_lt b2 b3
      obtain ⟨hwf, henc⟩ := encodes_of_decode32 (by omega) h
      have hlen : i.length = 4 := by rw [Instr.length, henc, if_pos (by omega)]
      exact ⟨hwf, by rw [encodeBytes, hlen, henc, leBytes_four]; rfl⟩
    · cases h

end Sys2Proof
end

section
/-!
The B extension (42_b_extension.md R270 to R299): the encodings of its instructions and each result, as a number, bit by bit or
byte by byte.
-/

namespace Sys2Proof.Machine

theorem encodedR2_of_reads {top f3 op : Nat} {k : Reg → Reg → Instr} (hop : WideOpcode op)
    (hk : ReadsR2 top f3 op k) : EncodedR2 top f3 op k := fun w hw rd rs1 h0 h3 htop hrd hrs1 => by
  have high : field w 25 7 = top / 2 ^ 5 ∧ field w 20 5 = top % 2 ^ 5 := by
    simp only [field] at htop ⊢
    omega
  refine decodeTableWord_of_opcode hw hop h0 ?_
  rw [hk w h0 h3 high.1 high.2, decR2, hrd, hrs1, withReg_val, withReg_val]

/-! ## Zba, the logic operations, and the extremes (R271 to R276, R280 to R283) -/

/-- A shift to the left by `n` and an addition (R271 to R273). -/
theorem shiftAdd_eq_ofNat (a b : Word) (n : Nat) : (a <<< n) + b = BitVec.ofNat 32 (2 ^ n * a.toNat + b.toNat) := by
  rw [BitVec.ofNat_add, Nat.mul_comm, ← shiftLeft_eq_ofNat, BitVec.ofNat_toNat, BitVec.setWidth_eq]

theorem max_eq_wordOf (a b : Word) : (if ltS a b then b else a) = wordOf (max a.toInt b.toInt) := by
  have value : (if ltS a b then b else a).toInt = max a.toInt b.toInt := by
    split
    · rename_i h
      rw [max_eq_right ((ltS_iff a b).mp h).le]
    · rename_i h
      rw [max_eq_left (not_lt.mp (mt (ltS_iff a b).mpr h))]
  rw [← value, wordOf, BitVec.ofInt_toInt]

theorem min_eq_wordOf (a b : Word) : (if ltS a b then a else b) = wordOf (min a.toInt b.toInt) := by
  have value : (if ltS a b then a else b).toInt = min a.toInt b.toInt := by
    split
    · rename_i h
      rw [min_eq_left ((ltS_iff a b).mp h).le]
    · rename_i h
      rw [min_eq_right (not_lt.mp (mt (ltS_iff a b).mpr h))]
  rw [← value, wordOf, BitVec.ofInt_toInt]

theorem maxu_eq_ofNat (a b : Word) : (if ltU a b then b else a) = BitVec.ofNat 32 (max a.toNat b.toNat) := by
  refine BitVec.eq_of_toNat_eq ?_
  rw [BitVec.toNat_ofNat, Nat.mod_eq_of_lt (max_lt a.isLt b.isLt)]
  split
  · rename_i h
    rw [max_eq_right ((ltU_iff a b).mp h).le]
  · rename_i h
    rw [max_eq_left (not_lt.mp (mt (ltU_iff a b).mpr h))]

theorem minu_eq_ofNat (a b : Word) : (if ltU a b then a else b) = BitVec.ofNat 32 (min a.toNat b.toNat) := by
  refine BitVec.eq_of_toNat_eq ?_
  rw [BitVec.toNat_ofNat, Nat.mod_eq_of_lt (min_lt_of_left_lt a.isLt)]
  split
  · rename_i h
    rw [min_eq_left ((ltU_iff a b).mp h).le]
  · rename_i h
    rw [min_eq_right (not_lt.mp (mt (ltU_iff a b).mpr h))]

theorem getLsbD_andn (a b : Word) {i : Nat} (hi : i < 32) : (a &&& ~~~b).getLsbD i = (a.getLsbD i && !b.getLsbD i) := by
  rw [BitVec.getLsbD_and, BitVec.getLsbD_not, decide_eq_true hi, Bool.true_and]

theorem getLsbD_orn (a b : Word) {i : Nat} (hi : i < 32) : (a ||| ~~~b).getLsbD i = (a.getLsbD i || !b.getLsbD i) := by
  rw [BitVec.getLsbD_or, BitVec.getLsbD_not, decide_eq_true hi, Bool.true_and]

theorem getLsbD_xnor (a b : Word) {i : Nat} (hi : i < 32) : (~~~(a ^^^ b)).getLsbD i = (a.getLsbD i == b.getLsbD i) := by
  rw [BitVec.getLsbD_not, BitVec.getLsbD_xor, decide_eq_true hi, Bool.true_and]
  cases a.getLsbD i <;> cases b.getLsbD i <;> rfl

/-- Settles O10: the encodings by the R format and the two-register form, each result by its lemma about numbers or bits. -/
theorem shiftAddLogicMinMaxExtendResults : Obligations.ShiftAddLogicMinMaxExtendResults := by
  refine ⟨?_, ?_, ?_, ?_, ?_, ?_, ?_, ?_, ?_, ?_, ?_, ?_, ?_, fun s rd rs1 rs2 hB => ?_⟩
  case refine_11 | refine_12 =>
    exact encodedR2_of_reads (by decide) fun w h0 h3 h7 h5 => by
      simp only [decode32, h0, decOpImm, h3, decShiftLeft, h7, h5, Nat.reducePow, Nat.reduceDiv, Nat.reduceMod]
  case refine_13 =>
    exact encodedR2_of_reads (by decide) fun w h0 h3 h7 h5 => by
      simp only [decode32, h0, decOp, h7, h3, h5, Nat.reducePow, Nat.reduceDiv, Nat.reduceMod, if_true]
  case refine_14 =>
    exact ⟨writes_of_gated_eq rfl hB (shiftAdd_eq_ofNat _ _ 1), writes_of_gated_eq rfl hB (shiftAdd_eq_ofNat _ _ 2),
      writes_of_gated_eq rfl hB (shiftAdd_eq_ofNat _ _ 3),
      ⟨_, writes_of_gated rfl hB, fun i hi => getLsbD_andn _ _ hi⟩,
      ⟨_, writes_of_gated rfl hB, fun i hi => getLsbD_orn _ _ hi⟩,
      ⟨_, writes_of_gated rfl hB, fun i hi => getLsbD_xnor _ _ hi⟩,
      writes_of_gated_eq rfl hB (max_eq_wordOf ..), writes_of_gated_eq rfl hB (maxu_eq_ofNat ..),
      writes_of_gated_eq rfl hB (min_eq_wordOf ..), writes_of_gated_eq rfl hB (minu_eq_ofNat ..),
      writes_of_gated_eq rfl hB (sextByte_eq_signed8 _), writes_of_gated_eq rfl hB (sextHalf_eq_signed16 _),
      writes_of_gated_eq rfl hB (zextHalf_eq_unsigned16 _)⟩
  all_goals exact encodedR_of_reads (by decide) fun w h0 h3 h7 => by simp only [decode32, h0, decOp, h7, h3]

/-! ## The counts (R277 to R279) -/

theorem leadingZeros_le (v : Word) (n : Nat) : leadingZeros v n ≤ n := by
  induction n with
  | zero => exact Nat.le_refl _
  | succ n ih =>
    rw [leadingZeros]
    split <;> omega

/-- A bit read as a number. -/
theorem mod_two_pow_succ_eq (v : Word) (n : Nat) :
    v.toNat % 2 ^ (n + 1) = (v.getLsbD n).toNat * 2 ^ n + v.toNat % 2 ^ n := by
  rw [Nat.pow_succ, Nat.mod_mul, BitVec.getLsbD, Nat.toNat_testBit, Nat.add_comm, Nat.mul_comm]

/-- The zeros counted from bit `n - 1` downward bound the low `n` bits, from above and, when not all are 0, from below. -/
theorem bounds_of_leadingZeros (v : Word) (n : Nat) :
    v.toNat % 2 ^ n < 2 ^ (n - leadingZeros v n) ∧
      (leadingZeros v n < n → 2 ^ (n - 1 - leadingZeros v n) ≤ v.toNat % 2 ^ n) := by
  induction n with
  | zero => simp [leadingZeros, Nat.mod_one]
  | succ n ih =>
    obtain ⟨upper, lower⟩ := ih
    have hle := leadingZeros_le v n
    rw [leadingZeros]
    split
    · rename_i hbit
      have value := mod_two_pow_succ_eq v n
      rw [hbit] at value
      exact ⟨Nat.mod_lt _ (Nat.two_pow_pos _), fun _ => by
        rw [value, Bool.toNat_true, Nat.one_mul]
        exact Nat.le_add_right ..⟩
    · rename_i hbit
      have value := mod_two_pow_succ_eq v n
      rw [Bool.eq_false_of_not_eq_true hbit, Bool.toNat_false, Nat.zero_mul, Nat.zero_add] at value
      rw [value, show n + 1 - (leadingZeros v n + 1) = n - leadingZeros v n by omega,
        show n + 1 - 1 - (leadingZeros v n + 1) = n - 1 - leadingZeros v n by omega]
      exact ⟨upper, fun h => lower (by omega)⟩

theorem trailingZeros_le (v : Word) (k n : Nat) : trailingZeros v k n ≤ n := by
  induction n generalizing k with
  | zero => exact Nat.le_refl _
  | succ n ih =>
    have := ih (k + 1)
    rw [trailingZeros]
    split <;> omega

/-- The bits counted from bit `k` upward are 0, and the next one, when it is among the `n`, is 1. -/
theorem bits_of_trailingZeros (v : Word) (k n : Nat) :
    (∀ j < trailingZeros v k n, v.getLsbD (k + j) = false) ∧
      (trailingZeros v k n < n → v.getLsbD (k + trailingZeros v k n) = true) := by
  induction n generalizing k with
  | zero => exact ⟨fun j hj => absurd hj (Nat.not_lt_zero j), fun h => absurd h (Nat.lt_irrefl _)⟩
  | succ n ih =>
    obtain ⟨zeros, one⟩ := ih (k + 1)
    rw [trailingZeros]
    split
    · rename_i hbit
      exact ⟨fun j hj => absurd hj (Nat.not_lt_zero j), fun _ => hbit⟩
    · rename_i hbit
      refine ⟨fun j hj => ?_, fun h => ?_⟩
      · cases j with
        | zero => exact Bool.eq_false_of_not_eq_true hbit
        | succ j => exact (congrArg v.getLsbD (Nat.add_right_comm k 1 j)).symm.trans (zeros j (Nat.lt_of_succ_lt_succ hj))
      · exact (congrArg v.getLsbD (Nat.add_right_comm k 1 _)).symm.trans (one (Nat.lt_of_succ_lt_succ h))

/-- The low bits of a word are 0 where each of them is. -/
theorem mod_two_pow_eq_zero {v : Word} {n : Nat} (h : ∀ j < n, v.getLsbD j = false) : v.toNat % 2 ^ n = 0 := by
  induction n with
  | zero => exact Nat.mod_one _
  | succ n ih =>
    rw [mod_two_pow_succ_eq, h n (Nat.lt_succ_self n), ih fun j hj => h j (Nat.lt_succ_of_lt hj),
      Bool.toNat_false, Nat.zero_mul]

theorem countOnes_eq_length (v : Word) (n : Nat) :
    countOnes v n = ((List.range n).filter fun i => v.getLsbD i).length := by
  induction n with
  | zero => rfl
  | succ n ih =>
    rw [countOnes, ih, List.range_succ, List.filter_append, List.length_append, Nat.add_comm]
    cases h : v.getLsbD n <;> simp [h]

/-- Settles O11: each count by what its recursion keeps true of the bits it has passed. -/
theorem bitCountResults : Obligations.BitCountResults := by
  refine ⟨?_, ?_, ?_, fun s rd rs1 hB => ⟨⟨_, leadingZeros_le _ 32, writes_of_gated rfl hB, ?_⟩,
    ⟨_, trailingZeros_le _ 0 32, writes_of_gated rfl hB, ?_⟩, writes_of_gated_eq rfl hB (by rw [countOnes_eq_length])⟩⟩
  case refine_4 =>
    have bounds := bounds_of_leadingZeros (s.x rs1) 32
    rwa [Nat.mod_eq_of_lt (s.x rs1).isLt] at bounds
  case refine_5 =>
    obtain ⟨zeros, one⟩ := bits_of_trailingZeros (s.x rs1) 0 32
    simp only [Nat.zero_add] at zeros one
    exact ⟨mod_two_pow_eq_zero zeros, one⟩
  all_goals
    exact encodedR2_of_reads (by decide) fun w h0 h3 h7 h5 => by
      simp only [decode32, h0, decOpImm, h3, decShiftLeft, h7, h5, Nat.reducePow, Nat.reduceDiv, Nat.reduceMod]

/-! ## Rotations (R287 to R289) -/

theorem getLsbD_rotl (v : Word) {n i : Nat} (hn : n < 32) (hi : i < 32) :
    (rotl v n).getLsbD ((i + n) % 32) = v.getLsbD i := by
  rw [rotl, BitVec.getLsbD_or, BitVec.getLsbD_shiftLeft, BitVec.getLsbD_ushiftRight]
  by_cases hfit : i + n < 32
  · have second : (32 - n) % 32 + (i + n) = i ∨ 32 ≤ (32 - n) % 32 + (i + n) := by omega
    rw [Nat.mod_eq_of_lt hfit, decide_eq_true hfit, decide_eq_false (by omega : ¬ i + n < n), Nat.add_sub_cancel]
    rcases second with same | out
    · simp [same]
    · simp [BitVec.getLsbD_of_ge v _ out]
  · have wrapped : (i + n) % 32 = i + n - 32 := by omega
    have second : (32 - n) % 32 + (i + n - 32) = i := by omega
    rw [wrapped, decide_eq_true (by omega : i + n - 32 < n), second]
    simp

theorem getLsbD_rotr (v : Word) {n i : Nat} (hn : n < 32) (hi : i < 32) :
    (rotr v n).getLsbD i = v.getLsbD ((i + n) % 32) := by
  rw [rotr, BitVec.getLsbD_or, BitVec.getLsbD_shiftLeft, BitVec.getLsbD_ushiftRight, Nat.add_comm n i]
  by_cases hfit : i + n < 32
  · have second : i < (32 - n) % 32 ∨ i - (32 - n) % 32 = i + n := by omega
    rw [Nat.mod_eq_of_lt hfit]
    rcases second with low | same
    · simp [low]
    · rw [same, decide_eq_true hi, Bool.true_and]
      cases v.getLsbD (i + n) <;> simp
  · have wrapped : (i + n) % 32 = i - (32 - n) % 32 := by omega
    rw [wrapped, BitVec.getLsbD_of_ge v _ (by omega : 32 ≤ i + n), decide_eq_true hi,
      decide_eq_false (by omega : ¬ i < (32 - n) % 32)]
    simp

/-! ## Bytes (R290, R291) -/

/-- The bytes of a word put together from four. -/
theorem byteAt_append (b3 b2 b1 b0 : Byte) :
    byteAt (b3 ++ b2 ++ b1 ++ b0) 0 = b0 ∧ byteAt (b3 ++ b2 ++ b1 ++ b0) 1 = b1 ∧
      byteAt (b3 ++ b2 ++ b1 ++ b0) 2 = b2 ∧ byteAt (b3 ++ b2 ++ b1 ++ b0) 3 = b3 := by
  refine ⟨?_, ?_, ?_, ?_⟩
  · exact BitVec.extractLsb'_append_eq_right
  · exact (BitVec.extractLsb'_append_eq_of_le (by decide)).trans BitVec.extractLsb'_append_eq_right
  · exact (BitVec.extractLsb'_append_eq_of_le (by decide)).trans <|
      (BitVec.extractLsb'_append_eq_of_le (by decide)).trans BitVec.extractLsb'_append_eq_right
  · exact (BitVec.extractLsb'_append_eq_of_le (by decide)).trans <|
      (BitVec.extractLsb'_append_eq_of_le (by decide)).trans <| BitVec.extractLsb'_append_eq_left

/-! ## Single bits (R292 to R299) -/

theorem getLsbD_bitMask {n i : Nat} (hi : i < 32) : (bitMask n).getLsbD i = decide (i = n) := by
  rw [bitMask, BitVec.getLsbD_shiftLeft, BitVec.getLsbD_one, decide_eq_true hi]
  by_cases h : i = n
  · simp [h]
  · by_cases hlt : i < n
    · simp [h, hlt]
    · simp [h, hlt]
      omega

theorem boolWord_getLsbD (v : Word) (n : Nat) : boolWord (v.getLsbD n) = BitVec.ofNat 32 (v.toNat / 2 ^ n % 2) := by
  rw [← Nat.toNat_testBit, ← BitVec.getLsbD]
  cases v.getLsbD n <;> rfl

/-- The bit at `n` is set, cleared, inverted; the others are kept. -/
theorem getLsbD_and_not_bitMask (v : Word) {n i : Nat} (hi : i < 32) :
    (v &&& ~~~bitMask n).getLsbD i = if i = n then false else v.getLsbD i := by
  rw [getLsbD_andn _ _ hi, getLsbD_bitMask hi]
  by_cases h : i = n <;> simp [h]

theorem getLsbD_xor_bitMask (v : Word) {n i : Nat} (hi : i < 32) :
    (v ^^^ bitMask n).getLsbD i = if i = n then !v.getLsbD i else v.getLsbD i := by
  rw [BitVec.getLsbD_xor, getLsbD_bitMask hi]
  by_cases h : i = n <;> simp [h]

theorem getLsbD_or_bitMask (v : Word) {n i : Nat} (hi : i < 32) :
    (v ||| bitMask n).getLsbD i = if i = n then true else v.getLsbD i := by
  rw [BitVec.getLsbD_or, getLsbD_bitMask hi]
  by_cases h : i = n <;> simp [h]

/-- Each byte of ORC.B is that of its own byte. -/
theorem extractLsb'_orcB (v : Word) {k : Nat} (hk : k < 4) :
    BitVec.extractLsb' (8 * k) 8 (orcByte (byteAt v 3) ++ orcByte (byteAt v 2) ++ orcByte (byteAt v 1)
      ++ orcByte (byteAt v 0)) = if v.extractLsb' (8 * k) 8 = 0 then 0x00 else 0xFF := by
  obtain ⟨h0, h1, h2, h3⟩ :=
    byteAt_append (orcByte (byteAt v 3)) (orcByte (byteAt v 2)) (orcByte (byteAt v 1)) (orcByte (byteAt v 0))
  interval_cases k
  · exact h0
  · exact h1
  · exact h2
  · exact h3

/-- REV8 puts each byte in the place of its mirror image. -/
theorem extractLsb'_rev8 (v : Word) {k : Nat} (hk : k < 4) :
    BitVec.extractLsb' (8 * k) 8 (byteAt v 0 ++ byteAt v 1 ++ byteAt v 2 ++ byteAt v 3) =
      v.extractLsb' (8 * (3 - k)) 8 := by
  obtain ⟨h0, h1, h2, h3⟩ := byteAt_append (byteAt v 0) (byteAt v 1) (byteAt v 2) (byteAt v 3)
  interval_cases k
  · exact h0
  · exact h1
  · exact h2
  · exact h3

theorem shamtOf_lt (v : Word) : shamtOf v < 32 := Nat.mod_lt _ (by decide)

/-- A rotation by a register rotates by its low five bits. -/
theorem add_shamtOf_mod (i : Nat) (v : Word) : (i + shamtOf v) % 32 = (i + v.toNat) % 32 := Nat.add_mod_mod ..

/-- Settles O12: the encodings by the R, shift and two-register forms, each result by its bits or bytes. -/
theorem rotateByteAndSingleBitResults : Obligations.RotateByteAndSingleBitResults := by
  refine ⟨?_, ?_, ?_, ?_, ?_, ?_, ?_, ?_, ?_, ?_, ?_, ?_, ?_, fun s rd rs1 rs2 shamt hB => ?_⟩
  case refine_1 | refine_2 | refine_6 | refine_8 | refine_10 | refine_12 =>
    exact encodedR_of_reads (by decide) fun w h0 h3 h7 => by simp only [decode32, h0, decOp, h7, h3]
  case refine_3 | refine_9 =>
    exact encodedShift_of_reads fun w h0 h3 h7 => by simp only [decode32, h0, decOpImm, h3, decShiftRight, h7]
  case refine_7 | refine_11 | refine_13 =>
    exact encodedShift_of_reads fun w h0 h3 h7 => by simp only [decode32, h0, decOpImm, h3, decShiftLeft, h7]
  case refine_4 | refine_5 =>
    exact encodedR2_of_reads (by decide) fun w h0 h3 h7 h5 => by
      simp only [decode32, h0, decOpImm, h3, decShiftRight, h7, h5, Nat.reducePow, Nat.reduceDiv, Nat.reduceMod, if_true]
  case refine_14 =>
    exact ⟨⟨_, writes_of_gated rfl hB, fun i hi => by rw [← add_shamtOf_mod, getLsbD_rotl _ (shamtOf_lt _) hi]⟩,
      ⟨_, writes_of_gated rfl hB, fun i hi => by rw [← add_shamtOf_mod, getLsbD_rotr _ (shamtOf_lt _) hi]⟩,
      ⟨_, writes_of_gated rfl hB, fun i hi => getLsbD_rotr _ shamt.isLt hi⟩,
      ⟨_, writes_of_gated rfl hB, fun k hk => extractLsb'_orcB _ hk⟩,
      ⟨_, writes_of_gated rfl hB, fun k hk => extractLsb'_rev8 _ hk⟩,
      ⟨_, writes_of_gated rfl hB, fun i hi => getLsbD_and_not_bitMask _ hi⟩,
      ⟨_, writes_of_gated rfl hB, fun i hi => getLsbD_and_not_bitMask _ hi⟩,
      ⟨_, writes_of_gated rfl hB, fun i hi => getLsbD_xor_bitMask _ hi⟩,
      ⟨_, writes_of_gated rfl hB, fun i hi => getLsbD_xor_bitMask _ hi⟩,
      ⟨_, writes_of_gated rfl hB, fun i hi => getLsbD_or_bitMask _ hi⟩,
      ⟨_, writes_of_gated rfl hB, fun i hi => getLsbD_or_bitMask _ hi⟩,
      writes_of_gated_eq rfl hB (boolWord_getLsbD ..), writes_of_gated_eq rfl hB (boolWord_getLsbD ..)⟩

end Sys2Proof.Machine
end

section
/-!
The compressed arithmetic, control transfer and fences (43_zca.md, 44_zcb_zcmp_zcmt.md section 1, 40_rv32e_base.md section 7):
encodings, results as numbers, targets and frames.
-/

namespace Sys2Proof.Machine

/-! ## Immediates and results as numbers (30_encoding.md R157 to R159) -/

/-- A sign-extended immediate over `k` zero bits (R157, R158). -/
theorem signExtend_append_zeros {n k : Nat} (imm : BitVec n) :
    (imm ++ (0 : BitVec k)).signExtend 32 = wordOf (2 ^ k * imm.toInt) :=
  congrArg wordOf BitVec.toInt_append_zero

/-- A zero-extended immediate over `k` zero bits (R158, R159). -/
theorem setWidth_append_zeros {n k : Nat} (imm : BitVec n) :
    (imm ++ (0 : BitVec k)).setWidth 32 = BitVec.ofNat 32 (2 ^ k * imm.toNat) := by
  rw [← BitVec.ofNat_toNat, toNat_append_eq_add, Nat.mul_comm]
  rfl

theorem add_wordOf (a : Word) (n : Int) : a + wordOf n = wordOf (a.toNat + n) := by rw [wordOf_add, wordOf_toNat]

theorem add_ofNat (a : Word) (n : Nat) : a + BitVec.ofNat 32 n = BitVec.ofNat 32 (a.toNat + n) := by
  rw [BitVec.ofNat_add, BitVec.ofNat_toNat, BitVec.setWidth_eq]

theorem cUpperImm_eq_wordOf (imm : BitVec 6) : cUpperImm imm = wordOf (imm.toInt * 2 ^ 12) := by
  rw [cUpperImm, signExtend_append_zeros, Int.mul_comm]

theorem zextByte_eq_unsigned8 (v : Word) : zextByte v = unsigned8 v.toNat := by
  rw [zextByte, ← BitVec.ofNat_toNat, BitVec.extractLsb'_toNat, Nat.shiftRight_zero, unsigned8]

theorem not_eq_ofNat (v : Word) : ~~~v = BitVec.ofNat 32 (2 ^ 32 - 1 - v.toNat) := by
  rw [← BitVec.toNat_not, BitVec.ofNat_toNat, BitVec.setWidth_eq]

/-! ## Arithmetic -/

/-- Settles O14: the encodings by their formats, each result by its lemma about numbers. -/
theorem compressedArithmeticResults : Obligations.CompressedArithmeticResults :=
  ⟨encodedCi_of_reads (by decide) readsCi_cAddi, encodedCi_of_reads (by decide) readsCi_cLi,
    encodedCi_of_reads (by decide) readsCi_cLui, encodedCi_of_reads (by decide) readsCi_cSlli,
    encodedCa_cSub, encodedCa_cXor, encodedCa_cOr, encodedCa_cAnd, encodedCr_cAdd, encodedCr_cMv,
    encodedCiw_cAddi4spn, encodedAddi16sp_cAddi16sp, encodedCbAlu_of_reads readsCbAlu_cAndi,
    encodedCbAlu_of_reads readsCbAlu_cSrli, encodedCbAlu_of_reads readsCbAlu_cSrai,
    fun s rd rs2 r imm nzuimm shamt =>
      ⟨writes_of_writeTo_eq rfl (add_eq_wordOf ..), writes_of_writeTo_eq rfl (add_wordOf ..),
        writes_of_writeTo_eq rfl (by rw [addi4spnOffset, setWidth_append_zeros, add_ofNat]; rfl),
        writes_of_writeTo_eq rfl (by rw [addi16spOffset, signExtend_append_zeros, add_wordOf]; rfl),
        writes_of_writeTo rfl, writes_of_writeTo rfl, writes_of_writeTo_eq rfl (cUpperImm_eq_wordOf imm),
        writes_of_writeTo_eq rfl (shiftLeft_eq_ofNat ..)⟩,
    fun s rd rs2 imm shamt =>
      ⟨writes_of_writeTo_eq rfl (sub_eq_wordOf ..), writes_of_writeTo_eq rfl (and_eq_ofNat ..),
        writes_of_writeTo_eq rfl (or_eq_ofNat ..), writes_of_writeTo_eq rfl (xor_eq_ofNat ..), writes_of_writeTo rfl,
        writes_of_writeTo_eq rfl (ushiftRight_eq_ofNat ..), writes_of_writeTo_eq rfl (sshiftRight_eq_wordOf ..)⟩⟩

/-- Settles O15: the encodings by the CU and CA formats, each result by its lemma about numbers. -/
theorem zcbResults : Obligations.ZcbResults :=
  ⟨encodedCu_cZextB, encodedCu_cSextB, encodedCu_cZextH, encodedCu_cSextH, encodedCu_cNot, encodedCa_cMul,
    fun _ _ _ => ⟨writes_of_writeTo_eq rfl (zextByte_eq_unsigned8 _), writes_of_writeTo_eq rfl (not_eq_ofNat _),
      fun hB => ⟨writes_of_gated_eq rfl (hasZcbExt_of_hasB hB) (sextByte_eq_signed8 _),
        writes_of_gated_eq rfl (hasZcbExt_of_hasB hB) (zextHalf_eq_unsigned16 _),
        writes_of_gated_eq rfl (hasZcbExt_of_hasB hB) (sextHalf_eq_signed16 _)⟩,
      fun hmul => writes_of_gated_eq rfl (hasMul_eq_true hmul) (mul_eq_ofNat ..)⟩⟩

/-! ## Control transfer -/

/-- A compressed branch on whether a register is 0. -/
theorem goesTo_cBranch {i : Instr} {s : State} {b : Bool} {p : Prop} [Decidable p] {off : BitVec 8}
    (hi : exec i s = branchTo s 2 b (cBranchOffset off)) (hb : b = true ↔ p) :
    GoesTo i s (if p then s.pc + wordOf (2 * off.toInt) else s.pc + 2) := by
  have h := goesTo_of_branchTo hi
  rwa [cBranchOffset, signExtend_append_zero, if_congr hb rfl rfl] at h

/-- Settles O20: the jumps and branches, with their targets as numbers. -/
theorem compressedJumpResults : Obligations.CompressedJumpResults := by
  intro s rs1 c imm off
  rw [← signExtend_append_zero, ← clearBit0_eq_ofNat]
  refine ⟨goesTo_of_retireTo rfl, links_of_jumpLink rfl, goesTo_of_retireTo rfl, links_of_jumpLink rfl,
    goesTo_cBranch rfl beq_iff_eq, ?_⟩
  have taken := goesTo_cBranch (i := .cBnez c off) (s := s) (p := ¬ s.x (creg c) = 0) rfl bne_iff_ne
  rwa [ite_not] at taken

/-! ## C.NOP and the fences -/

/-- A fetch whose bytes were stored to since the last FENCE.I (20_memory.md R122). -/
theorem fetchMain_stale {s : State} {w : Width} {a : Nat} (hr : response s .fetch a ≠ .error)
    (h : ∃ b ∈ s.stale, InBytes a w.bytes b) : fetchMain s w a = .fault .staleFetch := by
  have stale : isStale s.stale a w.bytes = true := (isStale_iff ..).mpr h
  cases hresp : response s .fetch a
  case error => exact absurd hresp hr
  all_goals simp [fetchMain, hresp, stale]

theorem isStale_eq_false {s : State} {w : Width} {a : Nat} (h : ∀ b ∈ s.stale, ¬ InBytes a w.bytes b) :
    isStale s.stale a w.bytes = false := by
  rw [← Bool.not_eq_true, isStale_iff]
  exact fun ⟨b, hb, hin⟩ => h b hb hin

/-- Settles O17: the fences retire, and a fetch looks at the response before the marks. -/
theorem nopAndFences : Obligations.NopAndFences := by
  refine ⟨fun s pred succ => ⟨goesTo_of_retireTo rfl, goesTo_of_retireTo rfl⟩, fun s => ⟨_, rfl, ?_⟩, fun s w a =>
    ⟨fun h => fetchMain_error h w, fetchMain_stale, fun hfresh => ?_⟩⟩
  · obtain ⟨hregs, hmem, hstale, hsys, hcount⟩ := registerFrame_retireTo { s with stale := [] } (s.pc + 4)
    exact ⟨hstale, by simp [State.retire], hregs, hmem, hsys, hcount⟩
  · have fresh := isStale_eq_false hfresh
    refine ⟨fun hmemory => ?_, fun hdevice => ⟨deviceData (toDevice s .fetch w a 0) w, ?_⟩⟩
    · rw [← read_eq_leValue]
      simp [fetchMain, hmemory, fresh]
    · simp [fetchMain, hdevice, fresh]

end Sys2Proof.Machine
end

section
/-!
Loads and stores in every case (40_rv32e_base.md R251, 20_memory.md R101 to R109): the rule of a load and of a store once, and
with it the instructions of the base and the compressed ones.
-/

namespace Sys2Proof.Machine

/-! ## The rule of a load -/

theorem leValue_lt (m : List Host.Cell) (a n : Nat) : leValue m a n < 2 ^ (8 * n) := by
  induction n generalizing a with
  | zero => exact Nat.one_pos
  | succ n ih =>
    have := (Memory.readByte m a).isLt
    have := ih (a + 1)
    rw [leValue, Nat.mul_succ, Nat.pow_add]
    omega

theorem toNat_read (m : List Host.Cell) (w : Width) (a : Nat) : (Memory.read m w a).toNat = leValue m a w.bytes := by
  have hlt := leValue_lt m a w.bytes
  have hwidth : 2 ^ (8 * w.bytes) ≤ 2 ^ 32 := by cases w <;> decide
  rw [read_eq_leValue, BitVec.toNat_ofNat, Nat.mod_eq_of_lt (Nat.lt_of_lt_of_le hlt hwidth)]

theorem toNat_lowBytes (w : Width) (v : Word) : (lowBytes w v).toNat = v.toNat % 2 ^ (8 * w.bytes) := by
  have hle : v.toNat % 2 ^ (8 * w.bytes) ≤ v.toNat := Nat.mod_le ..
  rw [lowBytes_eq_ofNat, BitVec.toNat_ofNat, Nat.mod_eq_of_lt (Nat.lt_of_le_of_lt hle v.isLt)]

/-- A device's answer as a number. -/
theorem toNat_deviceData (s : State) (w : Width) (a : Nat) :
    (deviceData (toDevice s .load w a 0) w).toNat = deviceValue s w (toDevice s .load w a 0).devices :=
  toNat_lowBytes ..

/-- The history after a read of a device. -/
theorem devices_toDevice_load (s : State) (w : Width) (a : Word) :
    (toDevice s .load w (mainAddr a) 0).devices = deviceQuery .load w a :: s.devices := by
  have zero : lowBytes w 0 = 0 := by cases w <;> rfl
  simp only [toDevice, deviceQuery, zero]

/-- A load instruction follows the rule; `ext` is what its extension makes of the value as a number. -/
theorem loadRule_of_loadTo {i : Instr} {s : State} {len a : Word} {w : Width} {rd : Reg} {extend : Word → Word}
    {ext : Nat → Word} (hi : exec i s = loadTo s len w rd a extend) (hext : ∀ v : Word, extend v = ext v.toNat) :
    LoadRule i s len w rd a ext := by
  refine ⟨fun h => ?_, fun h => ?_, fun haligned htcip => ?_, fun haligned htcip hibus => ?_,
    fun haligned htcip hibus hresponse => ?_, fun h => ?_⟩
  case refine_1 =>
    have value : extend (Memory.read s.mem w (mainAddr a)) = ext (leValue s.mem (mainAddr a) w.bytes) := by
      rw [hext, toNat_read]
    exact value ▸ writes_of_loadTo hi h
  case refine_2 => simp only [Traps, hi, loadTo, loadMem_misaligned h, Res.elim]
  case refine_3 =>
    split
    · rename_i v hv
      exact hext v ▸ writes_of_loadTo_tcip hi haligned htcip hv
    · rename_i hnone
      simp [hi, loadTo, loadMem, haligned, htcip, hnone, Res.elim]
  case refine_4 => simp [hi, loadTo, loadMem, haligned, htcip, hibus, Res.elim]
  case refine_5 => simp [Traps, hi, loadTo, loadMem, haligned, htcip, hibus, hresponse, Res.elim]
  case refine_6 =>
    have hexec : exec i s = .next ((deviceRead s w (mainAddr a)).2.setX rd
        (extend (deviceRead s w (mainAddr a)).1) |>.retire len) := by rw [hi, loadTo, loadMem_device h, Res.elim]
    have hdevices : ((deviceRead s w (mainAddr a)).2.setX rd
        (extend (deviceRead s w (mainAddr a)).1) |>.retire len).devices = (toDevice s .load w (mainAddr a) 0).devices := by
      simp [deviceRead]
    refine ⟨_, hexec, hdevices.trans (devices_toDevice_load ..), ?_, by simp [State.retire, deviceRead, toDevice], ?_⟩
    · rw [hdevices, ← toNat_deviceData, State.retire, x_retireTo, x_setX_written, hext]
      rfl
    · rw [hdevices]
      exact registerFrame_setX_retireTo (toDevice s .load w (mainAddr a) 0) rd _ _

/-! ## The rule of a store -/

/-- A store instruction follows the rule. -/
theorem storeRule_of_storeFrom {i : Instr} {s : State} {len a v : Word} {w : Width}
    (hi : exec i s = storeFrom s len w a v) : StoreRule i s len w a v := by
  refine ⟨fun h hwf => stores_of_storeFrom hi h hwf, fun h => ?_, fun haligned htcip t ht => ?_,
    fun haligned htcip r hr => ?_, fun haligned htcip hibus => ?_, fun haligned htcip hibus hresponse => ?_, fun h => ?_⟩
  case refine_1 => simp only [Traps, hi, storeFrom, storeMem_misaligned h, Res.elim]
  case refine_2 =>
    have hexec : exec i s = .next (t.retire len) := by rw [exec_of_storeFrom_tcip hi haligned htcip, ht, Res.elim]
    obtain ⟨c, rfl⟩ := tcipWrite_ok ht
    exact ⟨_, hexec, by simp, by simp [State.retire], sameRegsBut_of_regs (by simp) _, sameMem_of_mem (by simp), by simp,
      by simp [SameSystem, State.retire], countedOne_retireTo_of (u := { s with clic := c }) rfl rfl rfl _⟩
  case refine_3 => rw [exec_of_storeFrom_tcip hi haligned htcip, hr, Res.elim]
  case refine_4 => simp [hi, storeFrom, storeMem, haligned, htcip, hibus, Res.elim]
  case refine_5 => simp [Traps, hi, storeFrom, storeMem, haligned, htcip, hibus, hresponse, Res.elim]
  case refine_6 =>
    have hexec : exec i s = .next ((storeDevice s w (mainAddr a) v).retire len) := by
      rw [hi, storeFrom, storeMem_device h, Res.elim]
    have hdevices : ((storeDevice s w (mainAddr a) v).retire len).devices = (storeDevice s w (mainAddr a) v).devices := by
      simp
    have hstale : ((storeDevice s w (mainAddr a) v).retire len).stale = (storeDevice s w (mainAddr a) v).stale := by simp
    refine ⟨_, hexec, hdevices.trans (storeDevice_record s w a v), fun b => ?_, by simp [State.retire, storeDevice, toDevice], ?_⟩
    · rw [hstale]
      exact mem_insertAddrs s.stale (mainAddr a) w.bytes b
    · rw [hdevices, hstale]
      exact registerFrame_retireTo (storeDevice s w (mainAddr a) v) _

/-! ## The base instructions -/

theorem encodedS_of_reads {f3 : Nat} {k : Reg → Reg → BitVec 12 → Instr} (hk : ReadsS f3 k) : EncodedS f3 k :=
  fun w hw rs2 rs1 imm h0 h3 hrs1 hrs2 h25 h7 => by
    refine decodeTableWord_of_opcode hw (by decide) h0 ?_
    rw [hk w h0 h3, decS, hrs2, hrs1, h25, h7, withReg_val, withReg_val, ofNat_of_eq_toNat (storeFields_sum imm)]

theorem eq_ofNat_toNat (v : Word) : v = BitVec.ofNat 32 v.toNat := by rw [BitVec.ofNat_toNat, BitVec.setWidth_eq]

/-- Settles O21: the encodings by the I format, and every load by the rule. -/
theorem loadResults : Obligations.LoadResults := by
  refine ⟨?_, ?_, ?_, ?_, ?_, fun s rd rs1 imm =>
    ⟨loadRule_of_loadTo rfl sextByte_eq_signed8, loadRule_of_loadTo rfl zextByte_eq_unsigned8,
      loadRule_of_loadTo rfl sextHalf_eq_signed16, loadRule_of_loadTo rfl zextHalf_eq_unsigned16,
      loadRule_of_loadTo rfl eq_ofNat_toNat⟩⟩
  all_goals exact encodedI_of_reads (by decide) fun w h0 h3 => by simp only [decode32, h0, decLoad, h3]

/-- Settles O22: the encodings by the S format, and every store by the rule. -/
theorem storeResults : Obligations.StoreResults := by
  refine ⟨?_, ?_, ?_, fun s rs2 rs1 imm =>
    ⟨storeRule_of_storeFrom rfl, storeRule_of_storeFrom rfl, storeRule_of_storeFrom rfl⟩⟩
  all_goals exact encodedS_of_reads fun w h0 h3 => by simp only [decode32, h0, decStore, h3]

/-! ## The compressed instructions -/

theorem clwOffset_eq_ofNat (imm : BitVec 5) : clwOffset imm = BitVec.ofNat 32 (4 * imm.toNat) := setWidth_append_zeros imm
theorem cspOffset_eq_ofNat (imm : BitVec 6) : cspOffset imm = BitVec.ofNat 32 (4 * imm.toNat) := setWidth_append_zeros imm
theorem cHalfOffset_eq_ofNat (imm : BitVec 1) : cHalfOffset imm = BitVec.ofNat 32 (2 * imm.toNat) := setWidth_append_zeros imm
theorem cByteOffset_eq_ofNat (imm : BitVec 2) : cByteOffset imm = BitVec.ofNat 32 imm.toNat := (BitVec.ofNat_toNat ..).symm

/-- Settles O23: every compressed load and store follows the rule, its offset spelled as a number. -/
theorem compressedLoadAndStoreResults : Obligations.CompressedLoadAndStoreResults := by
  intro s r2 rs1 r imm5 imm6 imm2 imm1
  rw [← clwOffset_eq_ofNat, ← cspOffset_eq_ofNat, ← cHalfOffset_eq_ofNat, ← cByteOffset_eq_ofNat]
  exact ⟨loadRule_of_loadTo rfl eq_ofNat_toNat, loadRule_of_loadTo rfl eq_ofNat_toNat,
    loadRule_of_loadTo rfl zextByte_eq_unsigned8, loadRule_of_loadTo rfl zextHalf_eq_unsigned16,
    loadRule_of_loadTo rfl sextHalf_eq_signed16, storeRule_of_storeFrom rfl, storeRule_of_storeFrom rfl,
    storeRule_of_storeFrom rfl, storeRule_of_storeFrom rfl⟩

end Sys2Proof.Machine
end

section
/-!
The CSR instructions that only read, on every CSR that machine mode can read (10_state.md R35, 40_rv32e_base.md section 8).
-/

namespace Sys2Proof.Machine

/-- A read of a readable CSR is one the access allows. -/
theorem csrAccess_of_readable {s : State} {n : BitVec 12} {c : CsrName} (hn : csrOf n = some c) (hc : Readable s c) :
    csrAccess s n false = .ok c := by
  cases c
  case mcounteren | mcountinhibit | mcycle | minstret =>
    have hcounters : s.cfg.hasCounters = true := hc
    simp [csrAccess, hn, counterCsr, openReadOnly, hcounters]
  case tselect | tcontrol | mcontext | mhaltcause =>
    have hdebug : s.hasDebug = true := hc
    simp [csrAccess, hn, debugCsr, hdebug]
  case tdata1 | tdata2 | tdata3 =>
    have hdebug : s.hasDebug = true := hc
    simp [csrAccess, hn, triggerCsr, hdebug]
  case tinfo | mdbginfo | mpcfifo =>
    have hdebug : s.hasDebug = true := hc
    simp [csrAccess, hn, openReadOnly, noWrite, hdebug]
  case dcsr | dpc | dscratch0 | dscratch1 =>
    have hmode : s.dbg.debugMode = true := hc
    simp [csrAccess, hn, hmode]
  case mscratchcswl => exact hc.elim
  case mvendorid | marchid | mimpid | mhartid | mcpuid | mtvec | mtvt | jvt | mip | mclicbase =>
    simp [csrAccess, hn, noWrite, openReadOnly]
  all_goals simp [csrAccess, hn]

theorem ne_mscratchcswl_of_readable {s : State} {n : BitVec 12} {c : CsrName} (hn : csrOf n = some c)
    (hc : Readable s c) : csrOf n ≠ some .mscratchcswl := fun h => by
  cases hn.symm.trans h
  exact hc

/-- Settles O27: the four forms that write nothing, by the access they make. -/
theorem csrPureReads : Obligations.CsrPureReads := by
  intro s rd n c hn hc
  have reads := writes_of_read (rd := rd) (csrAccess_of_readable hn hc) (ne_mscratchcswl_of_readable hn hc)
  exact ⟨reads _ (by simp [readingForms]), reads _ (by simp [readingForms]), reads _ (by simp [readingForms]),
    reads _ (by simp [readingForms])⟩

end Sys2Proof.Machine
end

section
/-!
Taking an interrupt (60_exceptions.md R421 to R426): the entry, the direct and the vectored one, and a single step that masks
interrupts (R430).
-/

namespace Sys2Proof.Machine

/-! ## Interrupt entry (R422) -/

theorem interruptEntry_csr (s : State) (id : Nat) :
    (interruptEntry s id).csr =
      { s.csr with
        mepc := normPc (clearBit0 s.pc), causeCode := BitVec.ofNat 9 id, causeInt := true
        mpie := s.csr.mie, mie := false, exptVld := s.csr.exptVld || Config.exptVldOnInterrupt } := by
  simp [interruptEntry]

theorem interruptEntry_dbg (s : State) (id : Nat) :
    (interruptEntry s id).dbg = if s.hasDebug then { s.dbg with mpte := s.dbg.mte, mte := false } else s.dbg := by
  rw [interruptEntry, State.saveMte]
  split <;> rfl

/-- What R422 does to the privileged state, when the interrupt `id` is taken at the pc of `s`; memory, the registers, the
history of the devices and the counter of retired instructions are those of `s`. -/
def EntersInterrupt (s t : State) (id : Nat) : Prop :=
  t.csr.mepc = normPc (clearBit0 s.pc) ∧ t.csr.causeCode = BitVec.ofNat 9 id ∧ t.csr.causeInt = true ∧
    t.csr.mpie = s.csr.mie ∧ t.csr.mie = false ∧ t.sleeping = false ∧ t.trapStack = .irq :: s.trapStack ∧
    t.dbg.debugMode = s.dbg.debugMode ∧ (s.hasDebug = true → t.dbg.mpte = s.dbg.mte ∧ t.dbg.mte = false) ∧
    t.regs = s.regs ∧ t.mem = s.mem ∧ t.devices = s.devices ∧ t.ctr = s.ctr ∧ t.cfg = s.cfg

theorem entersInterrupt_interruptEntry (s : State) (id : Nat) : EntersInterrupt s (interruptEntry s id) id := by
  refine ⟨?_, ?_, ?_, ?_, ?_, rfl, by simp [interruptEntry], ?_, fun hdebug => ?_, by simp [interruptEntry],
    by simp [interruptEntry], by simp [interruptEntry], by simp [interruptEntry], by simp [interruptEntry]⟩
  case refine_6 =>
    rw [interruptEntry_dbg]
    split <;> rfl
  case refine_7 =>
    rw [interruptEntry_dbg, if_pos hdebug]
    exact ⟨rfl, rfl⟩
  all_goals rw [interruptEntry_csr]

/-- The interrupt that a running hart takes at this boundary (R421, R426). -/
theorem step_of_taken {s : State} {id : Nat} (hrunning : Running s) (htakes : TakesInterrupts s)
    (hstack : s.trapStack.contains .irq = false) (hwinner : winner (sample s (nextInput s)) = some id) :
    step s = takeInterrupt (sample s (nextInput s)) id := by
  have hnested : inIrq (sample s (nextInput s)) = false := hstack
  rw [step_of_winner hrunning htakes hwinner, hnested]
  rfl

/-! ## A non-vectored interrupt (R423), and a single step that takes none (R430) -/

theorem takeInterrupt_direct {s : State} {id : Nat} (h : (sourceOf s id).shv = false) :
    takeInterrupt s id = .next { interruptEntry s id with pc := normPc s.trapBase } := by
  simp [takeInterrupt, h]

/-- Settles O41: a masked single step takes none, and elsewhere the entry goes to the base of mtvec. -/
theorem nonVectoredInterruptEntry : Obligations.NonVectoredInterruptEntry := by
  refine ⟨fun s hrunning hmasked htriggers hawake => ?_,
    fun s id hrunning htakes hstack heven hheld hwinner hshv => ?_⟩
  · exact runsDecoded_of_runInstr (step_unhindered ⟨hrunning, .inr (.inl hmasked), htriggers⟩ hawake) rfl
  · obtain ⟨hmepc, hcode, hint, hmpie, hmie, hsleeping, htrap, hmode, hmte, hregs, hmem, _, hctr, hcfg⟩ :=
      entersInterrupt_interruptEntry (sample s (nextInput s)) id
    have hexec := (step_of_taken hrunning htakes hstack hwinner).trans (takeInterrupt_direct hshv)
    refine ⟨_, hexec, hmepc.trans (normPc_clearBit0_of_held heven hheld), hcode, hint, hmpie.trans htakes.1, hmie, ?_, ?_,
      hsleeping, htrap, hmode.trans hrunning.2.1, hmte, sameRegsBut_of_regs hregs _, sameMem_of_mem hmem, ?_,
      (congrArg _ hctr).trans (sample_minstret ..), hcfg⟩
    · have hminhv : (interruptEntry (sample s (nextInput s)) id).csr.minhv = s.csr.minhv := by
        rw [interruptEntry_csr]
        rfl
      exact hminhv
    · rw [← trapBase_eq]
      rfl
    · simp [interruptEntry]

/-! ## A vectored interrupt (R424, R425) -/

/-- A table word in memory, not stored to since FENCE.I. -/
theorem loadVector_memory {s : State} {a : Word} (htcip : inTcip a = false)
    (hresponse : response s .load (mainAddr a) = .memory) (hstale : isStale s.stale (mainAddr a) 4 = false) :
    loadVector s a = .ok (Memory.read s.mem .word (mainAddr a), s) := by
  simp [loadVector, htcip, hresponse, hstale]

/-- A source's latch after the acknowledge. -/
theorem sourceOf_acknowledge {s : State} {id : Nat} (hid : id < 128) (j : Nat) :
    sourceOf (acknowledge s id) j =
      if j = id ∧ (sourceOf s id).edge = true then { sourceOf s id with latch := false } else sourceOf s j := by
  unfold acknowledge
  by_cases hedge : (sourceOf s id).edge = true
  · simp [hedge, sourceOf_setSource hid]
  · simp [hedge]

/-- The acknowledge changes the sources only. -/
theorem acknowledge_eq (s : State) (id : Nat) : ∃ c, acknowledge s id = { s with clic := c } := by
  unfold acknowledge
  split
  · exact ⟨_, rfl⟩
  · exact ⟨s.clic, rfl⟩

theorem takeInterrupt_vectored {s : State} {id : Nat} (hshv : (sourceOf s id).shv = true)
    (htcip : inTcip (vectorAddr s id) = false) (hresponse : response s .load (mainAddr (vectorAddr s id)) = .memory)
    (hstale : isStale s.stale (mainAddr (vectorAddr s id)) 4 = false) :
    takeInterrupt s id = .next
      { acknowledge (setMinhv (setMinhv (interruptEntry s id) true) false) id with
        pc := normPc (vectorTarget s (Memory.read s.mem .word (mainAddr (vectorAddr s id)))) } := by
  have hload : loadVector (setMinhv (interruptEntry s id) true) (vectorAddr s id) =
      .ok (Memory.read s.mem .word (mainAddr (vectorAddr s id)), setMinhv (interruptEntry s id) true) := by
    have hmem : (setMinhv (interruptEntry s id) true).mem = s.mem := by simp [setMinhv, interruptEntry]
    rw [← hmem]
    refine loadVector_memory htcip ?_ (by simpa [setMinhv, interruptEntry] using hstale)
    rw [← hresponse]
    simp [response, setMinhv, interruptEntry]
  simp only [takeInterrupt, hshv, hload, if_true]

theorem vectorTarget_of_even {s : State} {v : Word} (h : v.getLsbD 0 = false) : vectorTarget s v = v := by
  rw [vectorTarget, h]
  rfl

/-- The table word is read between the two changes of MINHV, and the acknowledge comes last: R422 holds all the same. -/
theorem entersInterrupt_vectored (s : State) (id : Nat) (p : Word) :
    EntersInterrupt s { acknowledge (setMinhv (setMinhv (interruptEntry s id) true) false) id with pc := p } id := by
  obtain ⟨c, hc⟩ := acknowledge_eq (setMinhv (setMinhv (interruptEntry s id) true) false) id
  rw [hc]
  exact entersInterrupt_interruptEntry s id

theorem minhv_acknowledge (s : State) (id : Nat) (b : Bool) : (acknowledge (setMinhv s b) id).csr.minhv = b := by
  obtain ⟨c, hc⟩ := acknowledge_eq (setMinhv s b) id
  rw [hc]
  rfl

theorem sourceOf_entered (s : State) (id j : Nat) :
    sourceOf (setMinhv (setMinhv (interruptEntry s id) true) false) j = sourceOf s j := by
  simp [sourceOf]

/-- Settles O42: the entry goes to the table word, and the acknowledge clears the latch of an edge source. -/
theorem vectoredInterruptEntry : Obligations.VectoredInterruptEntry := by
  intro s id v hrunning htakes hstack heven hheld hwinner hshv htcip hresponse hstale hv
  obtain ⟨hid, _⟩ := highest_eq_some_iff.mp hwinner
  have hexec := (step_of_taken hrunning htakes hstack hwinner).trans (takeInterrupt_vectored hshv htcip hresponse hstale)
  have hread : Memory.read (sample s (nextInput s)).mem .word (mainAddr (vectorAddr (sample s (nextInput s)) id)) = v :=
    (read_eq_leValue ..).trans hv.symm
  rw [hread] at hexec
  obtain ⟨hmepc, hcode, hint, hmpie, hmie, hsleeping, htrap, hmode, hmte, hregs, hmem, hdevices, hctr, hcfg⟩ :=
    entersInterrupt_vectored (sample s (nextInput s)) id (normPc (vectorTarget (sample s (nextInput s)) v))
  have hsource (j : Nat) := sourceOf_acknowledge
    (s := setMinhv (setMinhv (interruptEntry (sample s (nextInput s)) id) true) false) hid j
  simp only [sourceOf_entered] at hsource
  refine ⟨_, hexec, fun h => congrArg normPc (vectorTarget_of_even h),
    (normPc_getLsbD _ (by decide)).trans (vectorTarget_even _ v), hmepc.trans (normPc_clearBit0_of_held heven hheld), hcode,
    hint, hmpie.trans htakes.1, hmie, minhv_acknowledge .., hsleeping, htrap, hmode.trans hrunning.2.1, hmte,
    sameRegsBut_of_regs hregs _, sameMem_of_mem hmem, hdevices, (congrArg _ hctr).trans (sample_minstret ..), hcfg, ?_,
    fun j hj => ?_⟩
  · refine (congrArg ClicSource.latch (hsource id)).trans ?_
    simp only [true_and]
    split <;> rfl
  · exact (hsource j).trans (if_neg fun h => hj h.1)

end Sys2Proof.Machine
end

section
/-!
Word accesses to the CLINT and to the registers of an interrupt, and the timer line (60_exceptions.md R441 to R451).
-/

namespace Sys2Proof.Machine

theorem sw_eq_storeFrom (s : State) (rs2 rs1 : Reg) : exec (.sw rs2 rs1 0) s = storeFrom s 4 .word (s.x rs1) (s.x rs2) := by
  rw [← add_sext12_zero (s.x rs1)]
  rfl

theorem lw_eq_loadTo (s : State) (rd rs1 : Reg) : exec (.lw rd rs1 0) s = loadTo s 4 .word rd (s.x rs1) id := by
  rw [← add_sext12_zero (s.x rs1)]
  rfl

/-- A word load of a register of the window. -/
theorem writes_lw_tcip {s : State} {rd rs1 : Reg} {a v : Word} (haddr : s.x rs1 = a) (haligned : misaligned .word a = false)
    (htcip : inTcip a = true) (hv : tcipRead s .word a.toNat = some v) : Writes (.lw rd rs1 0) s rd v 4 := by
  subst haddr
  exact writes_of_loadTo_tcip (lw_eq_loadTo s rd rs1) haligned htcip hv

/-- A word store to a register of the window. -/
theorem storesToTcip_sw {s t : State} {rs2 rs1 : Reg} {a : Word} (haddr : s.x rs1 = a)
    (haligned : misaligned .word a = false) (htcip : inTcip a = true)
    (ht : tcipWrite s .word a.toNat (s.x rs2) = .ok t) : StoresToTcip (.sw rs2 rs1 0) s (t.retire 4) := by
  subst haddr
  exact storesToTcip_of_storeFrom (sw_eq_storeFrom s rs2 rs1) haligned htcip ht

/-! ## msip and mtimecmpl (R441 to R443) -/

/-- The state after a store to msip. -/
def withMsip (s : State) (b : Bool) : State := { s with clic := { s.clic with msip := b } }

/-- The state after a store to mtimecmpl. -/
def withMtimecmp (s : State) (v : Word) : State := { s with clic := { s.clic with mtimecmp := v } }

theorem isPending_retire (s : State) (len : Word) (j : Nat) : isPending (s.retire len) j = isPending s j := by
  rw [isPending, isPending, sourceOf_retire, lineOf, lineOf, retire_cfg, retire_clic, retire_pins]

theorem isPending_withMsip {s : State} (hlevel : (sourceOf s 3).edge = false) (b : Bool) : isPending (withMsip s b) 3 = b := by
  have hedge : (sourceOf (withMsip s b) 3).edge = false := hlevel
  rw [isPending_of_hasSource rfl, hedge]
  rfl

theorem isPending_withMsip_other (s : State) (b : Bool) {j : Nat} (hj : j ≠ 3) :
    isPending (withMsip s b) j = isPending s j := by
  rw [isPending, isPending, lineOf, lineOf, if_neg hj, if_neg hj]
  rfl

theorem hasSource_timer {c : Config} (h : c.hasCounters = true) : hasSource c 7 = true := by simp [hasSource, h]

theorem isPending_withMtimecmp {s : State} (hcounters : s.cfg.hasCounters = true) (hlevel : (sourceOf s 7).edge = false)
    (v : Word) : isPending (withMtimecmp s v) 7 = true ↔ v.toNat ≤ s.pins.sysCnt.toNat := by
  have hedge : (sourceOf (withMtimecmp s v) 7).edge = false := hlevel
  rw [isPending_of_hasSource (s := withMtimecmp s v) (hasSource_timer hcounters), hedge]
  exact decide_eq_true_iff

theorem isPending_withMtimecmp_other (s : State) (v : Word) {j : Nat} (hj : j ≠ 7) :
    isPending (withMtimecmp s v) j = isPending s j := by
  simp [isPending, sourceOf, lineOf, withMtimecmp, hj]

/-- The timer line once the inputs are sampled (R443). -/
theorem isPending_sample_timer {s : State} (hcounters : s.cfg.hasCounters = true) (hlevel : (sourceOf s 7).edge = false)
    (i : StepInput) : isPending (sample s i) 7 = true ↔ s.clic.mtimecmp.toNat ≤ i.sysCnt.toNat := by
  rw [isPending_of_hasSource (s := sample s i) (hasSource_timer hcounters), sourceOf_sample (by decide), sampleSource_edge,
    hlevel]
  exact decide_eq_true_iff

/-! ## The worked configuration of R451 -/

/-- The source the store of R451 leaves: enabled, level, vectored. -/
def workedSource : ClicSource := { latch := false, ie := true, edge := false, falling := false, shv := true }

theorem hasSource_external {c : Config} (h : 1 ≤ c.extIntNum) : hasSource c 16 = true := by
  simp [hasSource]
  omega

theorem clicAddr_worked {c : Config} (h : 1 ≤ c.extIntNum) : clicAddr c (0xE0801040 : Word).toNat = some (16, 0) := by
  have haddr : (0xE0801040 : Word).toNat = clicByteAddr 16 0 := by decide
  rw [haddr]
  exact clicAddr_clicByteAddr (hasSource_external h) (by decide)

theorem tcipWrite_worked {s : State} (h : 1 ≤ s.cfg.extIntNum) :
    tcipWrite s .word (0xE0801040 : Word).toNat 0x7F010100 = .ok (setSource s 16 workedSource) := by
  have haddr := clicAddr_worked h
  have hsource : writeSource s 16 (some ((0x7F010100 : Word).extractLsb' 0 8)) (some ((0x7F010100 : Word).extractLsb' 8 8))
      (some ((0x7F010100 : Word).extractLsb' 16 8)) = .ok workedSource := rfl
  simp only [tcipWrite, haddr, storeSource, hsource]
  rfl

/-- A word read of interrupt 16 reads its four byte registers. -/
theorem tcipRead_external {s : State} (h : 1 ≤ s.cfg.extIntNum) :
    tcipRead s .word (0xE0801040 : Word).toNat =
      some (clicByte s 16 3 ++ clicByte s 16 2 ++ clicByte s 16 1 ++ clicByte s 16 0) := by
  simp only [tcipRead]
  rw [if_neg (by decide), if_neg (fun h => absurd h.1 (by decide)), if_neg (fun h => absurd h.1 (by decide)),
    if_neg (by decide), if_neg (by decide), clicAddr_worked h]
  rfl

theorem tcipRead_worked {s : State} (h : 1 ≤ s.cfg.extIntNum) (hsource : sourceOf s 16 = workedSource) :
    tcipRead s .word (0xE0801040 : Word).toNat =
      some ((0x10 : Byte) ++ (0xC1 : Byte) ++ (0x01 : Byte) ++ bitByte (isPending s 16)) := by
  rw [tcipRead_external h]
  simp only [clicByte, hsource]
  rfl

/-- The four bytes of a source as a word, read off from above. -/
theorem bytes_of_append (b3 b2 b1 b0 : Byte) :
    (b3 ++ b2 ++ b1 ++ b0).toNat / 2 ^ 16 = b3.toNat * 2 ^ 8 + b2.toNat ∧
      (b3 ++ b2 ++ b1 ++ b0).toNat / 2 ^ 8 % 2 ^ 8 = b1.toNat := by
  rw [toNat_append_eq_add, toNat_append_eq_add, toNat_append_eq_add]
  omega

/-- Settles O44: each store by the register it addresses, and the timer line by the comparison that makes it. -/
theorem clintAndClicStores : Obligations.ClintAndClicStores := by
  refine ⟨fun s rs1 rs2 haddr hlevel => ?_, fun s rs1 rs2 hcounters haddr hlevel => ?_, fun s rd rs1 hcounters haddr => ?_,
    fun s i hcounters hlevel => isPending_sample_timer hcounters hlevel i, fun s rs1 rs2 haddr hvalue hext => ?_⟩
  case refine_1 =>
    refine ⟨(withMsip s ((s.x rs2).getLsbD 0)).retire 4, storesToTcip_sw haddr (by decide) (by decide) rfl, ?_, fun j hj => ?_,
      by simp [withMsip], ?_⟩
    · rw [isPending_retire, isPending_withMsip hlevel]
    · rw [isPending_retire, isPending_withMsip_other s _ hj]
    · have hx : ((withMsip s ((s.x rs2).getLsbD 0)).retire 4).x rs1 = 0xE0000000 := by
        rw [State.retire, x_retireTo]
        exact haddr
      refine writes_lw_tcip hx (by decide) (by decide) ?_
      have value := boolWord_getLsbD (s.x rs2) 0
      rw [Nat.pow_zero, Nat.div_one] at value
      rw [← value]
      simp [tcipRead, withMsip, boolWord]
  case refine_2 =>
    have hstore : tcipWrite s .word (0xE0004000 : Word).toNat (s.x rs2) = .ok (withMtimecmp s (s.x rs2)) := by
      simp [tcipWrite, hcounters, withMtimecmp]
    refine ⟨(withMtimecmp s (s.x rs2)).retire 4, storesToTcip_sw haddr (by decide) (by decide) hstore, ?_, fun j hj => ?_,
      by simp [withMtimecmp], ?_⟩
    · rw [isPending_retire, isPending_withMtimecmp hcounters hlevel]
    · rw [isPending_retire, isPending_withMtimecmp_other s _ hj]
    · have hx : ((withMtimecmp s (s.x rs2)).retire 4).x rs1 = 0xE0004000 := by
        rw [State.retire, x_retireTo]
        exact haddr
      refine writes_lw_tcip hx (by decide) (by decide) ?_
      simp [tcipRead, withMtimecmp, hcounters]
  case refine_3 => exact writes_lw_tcip haddr (by decide) (by decide) (by simp [tcipRead, hcounters])
  case refine_4 =>
    have hsource : hasSource s.cfg 16 = true := hasSource_external hext
    have hsource' : hasSource ((setSource s 16 workedSource).retire 4).cfg 16 = true := by simpa using hsource
    have hx : ((setSource s 16 workedSource).retire 4).x rs1 = 0xE0801040 := by
      rw [State.retire, x_retireTo]
      exact haddr
    have worked : sourceOf ((setSource s 16 workedSource).retire 4) 16 = workedSource :=
      sourceOf_stored_same (by decide) s workedSource 4
    have hread := tcipRead_worked (s := (setSource s 16 workedSource).retire 4) (by simpa using hext) worked
    obtain ⟨hhigh, hlow⟩ := bytes_of_append 0x10 0xC1 0x01 (bitByte (isPending ((setSource s 16 workedSource).retire 4) 16))
    have hstore : tcipWrite s .word (0xE0801040 : Word).toNat (s.x rs2) = .ok (setSource s 16 workedSource) := by
      rw [hvalue, tcipWrite_worked hext]
    refine ⟨_, storesToTcip_sw haddr (by decide) (by decide) hstore, worked,
      fun j hj => sourceOf_stored_other (by decide) s workedSource 4 hj, ?_, _,
      writes_lw_tcip hx (by decide) (by decide) hread, hhigh, hlow⟩
    rw [isActive, isPending_of_hasSource hsource', worked, lineOf_external (by decide)]
    simp [workedSource]

end Sys2Proof.Machine
end

section
/-!
The double moves, the table jumps and the coprocessor instructions (44_zcb_zcmp_zcmt.md sections 2 and 3, 45_coprocessor.md
sections 1 and 2).
-/

namespace Sys2Proof.Machine

/-! ## A retirement after writes of general registers -/

/-- The frame of a state that differs from `s` in general registers, once it retires. -/
theorem registerFrame_of_withRegs {s u : State} {l : List Reg} (hu : ∃ regs, u = { s with regs := regs })
    (hx : ∀ r : Reg, r ∉ l → u.x r = s.x r) (target : Word) : RegisterFrame l s (u.retireTo target) := by
  obtain ⟨regs, rfl⟩ := hu
  exact ⟨fun r hr => by rw [x_retireTo, hx r hr], sameMem_of_mem (by simp) , by simp, by simp [SameSystem],
    countedOne_retireTo_of (u := { s with regs := regs }) rfl rfl rfl target⟩

theorem setX_eq_withRegs (s : State) (r : Reg) (v : Word) : ∃ regs, s.setX r v = { s with regs := regs } := by
  unfold State.setX
  split
  · exact ⟨s.regs, rfl⟩
  · exact ⟨_, rfl⟩

theorem setX_setX_eq_withRegs (s : State) (r q : Reg) (v w : Word) :
    ∃ regs, (s.setX r v).setX q w = { s with regs := regs } := by
  obtain ⟨first, hfirst⟩ := setX_eq_withRegs s r v
  obtain ⟨second, hsecond⟩ := setX_eq_withRegs (s.setX r v) q w
  exact ⟨second, by rw [hsecond, hfirst]⟩

/-! ## CM.MVSA01 and CM.MVA01S (R367, R368) -/

/-- Two registers written and the instruction retired. -/
theorem registerFrame_setX_setX (s : State) {r q : Reg} {l : List Reg} (v w target : Word) (hr : r ∈ l) (hq : q ∈ l) :
    RegisterFrame l s (((s.setX r v).setX q w).retireTo target) :=
  registerFrame_of_withRegs (setX_setX_eq_withRegs s r q v w) (fun x hx => by
    rw [x_setX_other _ w (ne_of_mem_of_not_mem hq hx).symm, x_setX_other _ v (ne_of_mem_of_not_mem hr hx).symm]) target

theorem sreg_injective {r1 r2 : SReg} (h : sreg r1 = sreg r2) : r1 = r2 := by
  cases r1 <;> cases r2 <;> simp [sreg] at h ⊢

theorem sreg_mem (r : SReg) : sreg r ∈ [(8 : Reg), 9] := by cases r <;> decide

theorem sreg_ne_zero (r : SReg) : sreg r ≠ 0 := by cases r <;> decide

theorem pc_setX_setX_retire (s : State) (r q : Reg) (v w len : Word) :
    (((s.setX r v).setX q w).retire len).pc = normPc (s.pc + len) := by simp [State.retire]

/-- Settles O50: both moves write two registers, which are different ones. -/
theorem doubleMoveResults : Obligations.DoubleMoveResults := by
  refine fun s r1 r2 => ⟨fun hne => ⟨_, rfl, ?_, ?_, pc_setX_setX_retire .., ?_⟩,
    ⟨_, rfl, ?_, ?_, pc_setX_setX_retire .., ?_⟩⟩
  · rw [State.retire, x_retireTo, x_setX_other _ _ (mt sreg_injective hne), x_setX_same _ _ (sreg_ne_zero r1)]
  · rw [State.retire, x_retireTo, x_setX_same _ _ (sreg_ne_zero r2)]
  · exact registerFrame_setX_setX s _ _ _ (sreg_mem r1) (sreg_mem r2)
  · rw [State.retire, x_retireTo, x_setX_other _ _ (by decide), x_setX_same _ _ (by decide)]
  · rw [State.retire, x_retireTo, x_setX_same _ _ (by decide)]
  · exact registerFrame_setX_setX s _ _ _ (by decide) (by decide)

/-! ## CM.JT and CM.JALT (R369 to R372) -/

theorem jvtEntry_eq (s : State) (n : Nat) : jvtEntry s n = (csrRead s .jvt &&& 0xFFFFFFC0) + BitVec.ofNat 32 (4 * n) := by
  have mask : (0xFFFFFFC0 : Word) = BitVec.allOnes 26 ++ (0 : BitVec 6) := by decide
  have base : csrRead s .jvt &&& 0xFFFFFFC0 = s.csr.jvtBase ++ (0 : BitVec 6) := by
    rw [csrRead, mask, BitVec.and_append, BitVec.and_allOnes]
    rfl
  rw [base, jvtEntry, BitVec.ofNat_mul]
  rfl

/-- What a table jump does with the word that it fetches: CM.JT goes to it, CM.JALT links first. -/
def tableJump (s : State) (i : Instr) (v : Word) : Out :=
  match i with
  | .cmJalt _ => jumpLink s 2 raReg (clearBit0 v)
  | _ => .next (s.retireTo (clearBit0 v))

/-- A table jump fetches its entry and jumps. -/
theorem exec_tableJump {s : State} {i : Instr} {j : BitVec 5} {k : BitVec 8} {a : Word}
    (hi : i = .cmJt j ∧ a = (csrRead s .jvt &&& 0xFFFFFFC0) + BitVec.ofNat 32 (4 * j.toNat) ∨
      i = .cmJalt k ∧ a = (csrRead s .jvt &&& 0xFFFFFFC0) + BitVec.ofNat 32 (4 * k.toNat)) :
    exec i s = (fetchTable s a).elim s (tableJump s i) := by
  rcases hi with ⟨rfl, rfl⟩ | ⟨rfl, rfl⟩
  · rw [← jvtEntry_eq]
    rfl
  · rw [← jvtEntry_eq]
    rfl

theorem goesTo_cmJt {s : State} {j : BitVec 5} {v : Word} (h : exec (.cmJt j) s = tableJump s (.cmJt j) v) :
    GoesTo (.cmJt j) s (clearBit0 v) := goesTo_of_retireTo h

theorem links_cmJalt {s : State} {k : BitVec 8} {v : Word} (h : exec (.cmJalt k) s = tableJump s (.cmJalt k) v) :
    Links (.cmJalt k) s 1 (s.pc + 2) (clearBit0 v) := links_of_jumpLink h

/-- A fetch from a device answers its free value. -/
theorem fetchMain_device {s : State} {a : Word} (hresponse : response s .fetch (mainAddr a) = .device)
    (hstale : isStale s.stale (mainAddr a) 4 = false) :
    fetchMain s .word (mainAddr a) =
      .ok (BitVec.ofNat 32 (deviceValue s .word (deviceQuery .fetch .word a :: s.devices))) := by
  have answer : deviceData (toDevice s .fetch .word (mainAddr a) 0) .word =
      BitVec.ofNat 32 (deviceValue s .word (deviceQuery .fetch .word a :: s.devices)) := by
    rw [deviceData, lowBytes_eq_ofNat]
    rfl
  simp only [fetchMain, hresponse, hstale, Width.bytes, Bool.false_eq_true, if_false, if_true, answer]

/-- Settles O51: what the fetch of the table entry answers decides the case. -/
theorem tableJumpResults : Obligations.TableJumpResults := by
  intro s j k a i hi
  have hexec := exec_tableJump hi
  refine ⟨fun h => ?_, fun htcip hresponse => ?_, fun htcip hresponse hstale => ⟨_, rfl, ?_⟩,
    fun htcip hresponse hstale => ?_, fun htcip => ?_⟩
  · rw [fetchTable_ok h, read_eq_leValue] at hexec
    exact ⟨fun h => h ▸ goesTo_cmJt (h ▸ hexec), fun h => h ▸ links_cmJalt (h ▸ hexec)⟩
  · simp [Traps, hexec, fetchTable, htcip, fetchMain_error hresponse, Res.elim]
  · rw [fetchTable, htcip, fetchMain_device hresponse hstale] at hexec
    exact ⟨fun h => h ▸ goesTo_cmJt (h ▸ hexec), fun h => h ▸ links_cmJalt (h ▸ hexec)⟩
  · simp [hexec, fetchTable, htcip, fetchMain_stale (w := .word) hresponse ((isStale_iff ..).mp hstale), Res.elim]
  · simp [hexec, fetchTable, htcip, Res.elim]

/-! ## The coprocessor instructions (R383 to R393) -/

/-- The request of a cpx instruction carries its whole word. -/
theorem word_copReq {i : Instr} {func f3 low mid : Nat} {index : BitVec 2} {rs1 : Reg}
    (hi : encode i = encCpx func f3 index low rs1 mid) (hfit : func < 2 ^ 5 ∧ f3 < 2 ^ 3 ∧ low < 2 ^ 5 ∧ mid < 2 ^ 5)
    (srcs : List Word) :
    (copReq i index srcs).word.toNat = encode i ∧ field (copReq i index srcs).word.toNat 30 2 = index.toNat := by
  obtain ⟨hfunc, h3, hlow, hmid⟩ := hfit
  obtain ⟨hlt, _, _, _, h30, _⟩ := fields_encCpx hfunc h3 hlow hmid index rs1
  have word : (copReq i index srcs).word.toNat = encode i := toNat_ofNat_of_lt (hi ▸ hlt)
  exact ⟨word, by rw [word, hi, h30]⟩

theorem copEnabled_eq_true {s : State} (hcop : s.cfg.hasCop = true) (hen : s.csr.copEn = true) : copEnabled s = true := by
  rw [copEnabled, hcop, hen]
  rfl

/-- The state in which the request has been sent. -/
def requested (s : State) (q : CopReq) : State := { s with cop := q :: s.cop }

/-- A request without write-back: it is sent, and the instruction retires. -/
theorem sends_of_copSend {i : Instr} {s : State} {q : CopReq} (hi : exec i s = copSend s q) (hen : copEnabled s = true) :
    ∃ t, exec i s = .next t ∧ t.cop = q :: s.cop ∧ t.pc = normPc (s.pc + 4) ∧ SameRegsBut [] s t ∧ SameMem s t ∧
      t.stale = s.stale ∧ SameSystem { s with cop := t.cop } t ∧ CountedOne s t := by
  have hexec : exec i s = .next ((requested s q).retire 4) := by
    rw [hi, copSend, gated_present hen]
    rfl
  obtain ⟨hregs, hmem, hstale, hsys, hcount⟩ := registerFrame_retireTo (requested s q) (s.pc + 4)
  have hcop : ((requested s q).retire 4).cop = q :: s.cop := by simp [requested]
  refine ⟨_, hexec, hcop, by simp [State.retire, requested], hregs, hmem, hstale, ?_, hcount⟩
  rw [hcop]
  exact hsys

/-- A request whose answer is written to `rd`. -/
theorem receives_of_copCall {i : Instr} {s : State} {q : CopReq} {rd : Reg} (hi : exec i s = copCall s rd q)
    (hen : copEnabled s = true) :
    ∃ t, exec i s = .next t ∧ t.cop = q :: s.cop ∧ t.x rd = written rd (Config.copResult t.cop) ∧
      t.pc = normPc (s.pc + 4) ∧ SameRegsBut [rd] s t ∧ SameMem s t ∧ t.stale = s.stale ∧
      SameSystem { s with cop := t.cop } t ∧ CountedOne s t := by
  have hexec : exec i s = .next (((requested s q).setX rd (Config.copResult (q :: s.cop))).retire 4) := by
    rw [hi, copCall, gated_present hen]
    rfl
  have hcop : (((requested s q).setX rd (Config.copResult (q :: s.cop))).retire 4).cop = q :: s.cop := by simp [requested]
  obtain ⟨hregs, hmem, hstale, hsys, hcount⟩ := registerFrame_setX_retireTo (requested s q) rd (Config.copResult (q :: s.cop))
    (((requested s q).setX rd (Config.copResult (q :: s.cop))).pc + 4)
  refine ⟨_, hexec, hcop, ?_, by simp [State.retire, requested], hregs, hmem, hstale, ?_, hcount⟩
  · rw [hcop, State.retire, x_retireTo, x_setX_written]
  · rw [hcop]
    exact hsys

theorem sends_cpx {i : Instr} {s : State} {func f3 low mid : Nat} {index : BitVec 2} {rs1 : Reg} {srcs : List Word}
    (hen : copEnabled s = true) (hi : exec i s = copSend s (copReq i index srcs))
    (henc : encode i = encCpx func f3 index low rs1 mid) (hfit : func < 2 ^ 5 ∧ f3 < 2 ^ 3 ∧ low < 2 ^ 5 ∧ mid < 2 ^ 5) :
    ∃ t q, exec i s = .next t ∧ t.cop = q :: s.cop ∧ q.index = index ∧ q.srcs = srcs ∧ q.word.toNat = encode i ∧
      field q.word.toNat 30 2 = index.toNat ∧ t.pc = normPc (s.pc + 4) ∧ SameRegsBut [] s t ∧ SameMem s t ∧
      t.stale = s.stale ∧ SameSystem { s with cop := t.cop } t ∧ CountedOne s t := by
  obtain ⟨t, hexec, hcop, frame⟩ := sends_of_copSend hi hen
  obtain ⟨hword, hindex⟩ := word_copReq henc hfit srcs
  exact ⟨t, _, hexec, hcop, rfl, rfl, hword, hindex, frame⟩

theorem receives_cpx {i : Instr} {s : State} {func f3 low mid : Nat} {index : BitVec 2} {rs1 rd : Reg} {srcs : List Word}
    (hen : copEnabled s = true) (hi : exec i s = copCall s rd (copReq i index srcs))
    (henc : encode i = encCpx func f3 index low rs1 mid) (hfit : func < 2 ^ 5 ∧ f3 < 2 ^ 3 ∧ low < 2 ^ 5 ∧ mid < 2 ^ 5) :
    ∃ t q, exec i s = .next t ∧ t.cop = q :: s.cop ∧ q.index = index ∧ q.srcs = srcs ∧ q.word.toNat = encode i ∧
      field q.word.toNat 30 2 = index.toNat ∧ t.x rd = written rd (Config.copResult t.cop) ∧ t.pc = normPc (s.pc + 4) ∧
      SameRegsBut [rd] s t ∧ SameMem s t ∧ t.stale = s.stale ∧ SameSystem { s with cop := t.cop } t ∧ CountedOne s t := by
  obtain ⟨t, hexec, hcop, frame⟩ := receives_of_copCall hi hen
  obtain ⟨hword, hindex⟩ := word_copReq henc hfit srcs
  exact ⟨t, _, hexec, hcop, rfl, rfl, hword, hindex, frame⟩

/-- Settles O52: each instruction by its request, whose word is its encoding. -/
theorem coprocessorRequests : Obligations.CoprocessorRequests := by
  intro s index rd rs1 rs2 uimm imm hcop hcopEn
  have hen := copEnabled_eq_true hcop hcopEn
  refine ⟨fun p hp => ?_, fun p hp => ?_⟩
  · simp only [List.mem_cons, List.not_mem_nil, or_false] at hp
    rcases hp with rfl | rfl | rfl | rfl
    · exact sends_cpx hen rfl rfl ⟨by decide, by decide, field_lt .., field_lt ..⟩
    · exact sends_cpx hen rfl rfl (by decide)
    · exact sends_cpx hen rfl rfl ⟨by decide, by decide, imm.isLt, reg_lt rs2⟩
    · exact sends_cpx hen rfl rfl ⟨by decide, by decide, by decide, reg_lt rs2⟩
  · simp only [List.mem_cons, List.not_mem_nil, or_false] at hp
    rcases hp with rfl | rfl | rfl | rfl
    · exact receives_cpx hen rfl rfl ⟨by decide, by decide, reg_lt rd, imm.isLt⟩
    · exact receives_cpx hen rfl rfl ⟨by decide, by decide, reg_lt rd, by decide⟩
    · exact receives_cpx hen rfl rfl ⟨by decide, by decide, reg_lt rd, reg_lt rs2⟩
    · exact receives_cpx hen rfl rfl ⟨field_lt .., by decide, reg_lt rd, field_lt ..⟩

end Sys2Proof.Machine
end

section
/-!
Ten words written out, and what the machine reads after reset (30_encoding.md, 70_reset_and_hazards.md section 1).
-/

namespace Sys2Proof.Machine

/-- Settles O4: the decoder evaluated on the ten words. -/
theorem sampleWordsDecode : Obligations.SampleWordsDecode := by
  refine ⟨?_, ?_, ?_, ?_, ?_, ?_, ?_, ?_, ?_, ?_⟩ <;> decide

/-! ## The reset state -/

theorem zero_append_three : (0 : BitVec 26) ++ (3 : BitVec 6) = (0x00000003 : Word) := by decide

/-- The vector bases of a build that fixes none. -/
theorem resetBases_free {c : Config} (h : c.vecFixed = false) :
    csrRead (State.resetWith c) .mtvec = 0x00000003 ∧ csrRead (State.resetWith c) .mtvt = 0 := by
  simp only [csrRead, State.resetWith, h, Bool.false_eq_true, if_false]
  decide

/-- The vector bases of a build that fixes them are those of the interface. -/
theorem resetBases_fixed {c : Config} (h : c.vecFixed = true) :
    csrRead (State.resetWith c) .mtvec = (c.mtvecFixed &&& 0xFFFFFFC0) ||| 3 ∧
      csrRead (State.resetWith c) .mtvt = c.mtvtFixed &&& 0xFFFFFFC0 ∧
      csrRead (State.resetWith c) .jvt = c.jvtFixed &&& 0xFFFFFFC0 := by
  simp only [csrRead, State.resetWith, h, if_true]
  exact ⟨by rw [append_mode, base_append_zero], base_append_zero _, base_append_zero _⟩

/-- Interrupt 16 after reset: disabled, level, its line low. -/
theorem tcipRead_reset_external {c : Config} (h : 1 ≤ c.extIntNum) :
    tcipRead (State.resetWith c) .word 0xE0801040 = some 0x10C00000 := by
  have haddr : 0xE0801040 = (0xE0801040 : Word).toNat := by decide
  have hsource : sourceOf (State.resetWith c) 16 = resetSource := sourceOf_of_replicate rfl 16
  have hpending : isPending (State.resetWith c) 16 = false := by
    rw [isPending_of_hasSource (hasSource_external h), hsource, lineOf_external (by decide)]
    simp [resetSource, State.resetWith]
  rw [haddr, tcipRead_external h]
  simp only [clicByte, hsource, hpending]
  decide

/-- Settles O57: each value read off the reset state. -/
theorem resetValues : Obligations.ResetValues := by
  intro c hext
  refine ⟨?pc, ?mraddr, ?mstatus, resetBases_free, resetBases_fixed, ?mcause, ?mcountinhibit, rfl, rfl, ?tcontrol, rfl, rfl,
    rfl, rfl, rfl, rfl, rfl, rfl, fun hcounters => ?mtimecmp, fun hcounters => ?mtime, ?cliccfg,
    tcipRead_reset_external hext, winner_of_replicate rfl⟩
  case pc => exact (BitVec.ofNat_toNat 32 c.resetAddr).symm
  case mraddr => rfl
  case mstatus => simp [csrRead, mstatusValue, State.resetWith]
  case mcause => simp [csrRead, mcauseValue, State.resetWith]
  case mcountinhibit => simp [csrRead, mcountinhibitValue, State.resetWith]
  case tcontrol => simp [csrRead, State.resetWith]
  case mtimecmp | mtime => simp [tcipRead, State.resetWith, hcounters]
  case cliccfg => simp [tcipRead, State.resetWith]

end Sys2Proof.Machine
end

section
/-!
CM.PUSH and the three pops (44_zcb_zcmp_zcmt.md section 2): the slots of the stack, the states a run of stores or of loads
goes through, and what the instructions make of a run that is done or that ends early.
-/

namespace Sys2Proof.Machine

/-! ## The slots (R362 to R364) -/

theorem stackAdj_eq_ofNat (spimm : BitVec 2) : stackAdj spimm = BitVec.ofNat 32 (16 + 16 * spimm.toNat) := by
  revert spimm
  decide

theorem stackSlot_sub_four (top : Word) (k : Nat) : stackSlot top k - 4 = stackSlot top (k + 1) := by
  rw [stackSlot, stackSlot, BitVec.ofNat_add (k + 1) 1]
  generalize BitVec.ofNat 32 (k + 1) = j
  bv_omega

theorem length_listRegs_le (l : RegList) : (listRegs l).length ≤ 3 := by cases l <;> decide

theorem toNat_stackSlot (top : Word) {k : Nat} (hk : k < 3) :
    (stackSlot top k).toNat = (top.toNat + (2 ^ 32 - 4 * (k + 1))) % 2 ^ 32 := by
  have hlt := top.isLt
  rw [stackSlot]
  interval_cases k <;> bv_omega

/-- The slots lie at multiples of 4 from the stack pointer. -/
theorem misaligned_stackSlot (top : Word) {k : Nat} (hk : k < 3) :
    misaligned .word (stackSlot top k) = misaligned .word top := by
  rw [Bool.eq_iff_iff, misaligned_iff, misaligned_iff, toNat_stackSlot top hk]
  simp only [Width.bytes]
  omega

/-- Two slots have no byte in common, in main memory either. -/
theorem slots_apart {top : Word} (h : misaligned .word top = false) {j k b : Nat} (hjk : j < k) (hk : k < 3)
    (hb : InBytes (mainAddr (stackSlot top j)) 4 b) : ¬ InBytes (mainAddr (stackSlot top k)) 4 b := by
  have haligned : top.toNat % 4 = 0 := (aligned_iff .word top).mp h
  rw [mainAddr, toNat_stackSlot top (Nat.lt_trans hjk hk)] at hb
  rw [mainAddr, toNat_stackSlot top hk]
  simp only [InBytes, mainSize] at hb ⊢
  omega

theorem anyTcip_iff (top : Word) (j n : Nat) :
    anyTcip (stackSlot top j) n = true ↔ ∃ k < n, inTcip (stackSlot top (j + k)) = true := by
  induction n generalizing j with
  | zero => simp [anyTcip]
  | succ n ih =>
    rw [anyTcip, stackSlot_sub_four, Bool.or_eq_true, ih]
    constructor
    · rintro (h | ⟨k, hk, h⟩)
      · exact ⟨0, Nat.succ_pos n, h⟩
      · exact ⟨k + 1, Nat.succ_lt_succ hk, by rwa [← Nat.add_right_comm, Nat.add_assoc] at h⟩
    · rintro ⟨_ | k, hk, h⟩
      · exact .inl h
      · exact .inr ⟨k, Nat.lt_of_succ_lt_succ hk, by rwa [Nat.add_right_comm]⟩

theorem anyTcip_eq_false {top : Word} {n : Nat} (h : ∀ k < n, inTcip (stackSlot top k) = false) :
    anyTcip (stackSlot top 0) n = false := by
  rw [← Bool.not_eq_true, anyTcip_iff]
  rintro ⟨k, hk, htcip⟩
  rw [Nat.zero_add, h k hk] at htcip
  cases htcip

/-! ## How the instructions begin (R362, R373) -/

/-- What a stack instruction does where its slots are aligned and outside the TCIP window. -/
theorem stackGuard_pass {s : State} {code n : Nat} {top : Word} {k : Out} (haligned : misaligned .word top = false)
    (htcip : ∀ k < n, inTcip (stackSlot top k) = false) : stackGuard s code (stackSlot top 0) n k = k := by
  rw [stackGuard, misaligned_stackSlot top (by decide), haligned, anyTcip_eq_false htcip]
  rfl

theorem stackGuard_misaligned {s : State} {code n : Nat} {top : Word} {k : Out} (h : misaligned .word top = true) :
    stackGuard s code (stackSlot top 0) n k = .next (raise s code) := by
  rw [stackGuard, misaligned_stackSlot top (by decide), if_pos h]

theorem stackGuard_tcip {s : State} {code n : Nat} {top : Word} {k : Out} (haligned : misaligned .word top = false)
    (h : ∃ k < n, inTcip (stackSlot top k) = true) : stackGuard s code (stackSlot top 0) n k = .refused .zcmpTcip := by
  have hany : anyTcip (stackSlot top 0) n = true := by simpa only [anyTcip_iff, Nat.zero_add] using h
  rw [stackGuard, misaligned_stackSlot top (by decide), haligned, hany]
  rfl

theorem exec_cmPush (s : State) (l : RegList) (spimm : BitVec 2) :
    exec (.cmPush l spimm) s = stackGuard s 6 (stackSlot (s.x spReg) 0) (listRegs l).length
      ((pushRun s (listRegs l) (stackSlot (s.x spReg) 0) 0 s s).elim fun t =>
        .next ((t.setX spReg (s.x spReg - BitVec.ofNat 32 (16 + 16 * spimm.toNat))).retire 2)) := by
  rw [← stackAdj_eq_ofNat]
  rfl

theorem popThen_eq {s : State} {top : Word} {spimm : BitVec 2} (htop : top = s.x spReg + BitVec.ofNat 32 (16 + 16 * spimm.toNat))
    (l : RegList) (k : State → Out) :
    popThen s l spimm k = stackGuard s 4 (stackSlot top 0) (listRegs l).length
      ((popRun (listRegs l) (stackSlot top 0) 0 s s).elim fun t => k (t.setX spReg top)) := by
  rw [popThen, stackAdj_eq_ofNat, ← htop]
  rfl

/-! ## A store to the bus -/

/-- `t` is `s` but for memory, its stale marks and the devices' history. -/
def StoresOnly (s t : State) : Prop := ∃ mem stale devices, t = { s with mem := mem, stale := stale, devices := devices }

theorem StoresOnly.refl (s : State) : StoresOnly s s := ⟨s.mem, s.stale, s.devices, rfl⟩

theorem StoresOnly.trans {s t u : State} (h : StoresOnly s t) (h' : StoresOnly t u) : StoresOnly s u := by
  obtain ⟨_, _, _, rfl⟩ := h
  obtain ⟨mem, stale, devices, rfl⟩ := h'
  exact ⟨mem, stale, devices, rfl⟩

theorem StoresOnly.response {s t : State} (h : StoresOnly s t) (k : AccessKind) (a : Nat) :
    response t k a = response s k a := by
  obtain ⟨_, _, _, rfl⟩ := h
  rfl

theorem StoresOnly.storesToBus {s t : State} (h : StoresOnly s t) {w : Width} {a : Word} (ha : StoresToBus s w a) :
    StoresToBus t w a := by
  obtain ⟨_, _, _, rfl⟩ := h
  exact ha

/-- What a word store that the bus takes does: a device records it, memory holds it. -/
def busStore (s : State) (a v : Word) : State :=
  if response s .store (mainAddr a) = .device then storeDevice s .word (mainAddr a) v else storeMain s .word (mainAddr a) v

theorem busStore_memory {s : State} {a : Word} (h : response s .store (mainAddr a) = .memory) (v : Word) :
    busStore s a v = storeMain s .word (mainAddr a) v := if_neg (by rw [h]; decide)

theorem busStore_device {s : State} {a : Word} (h : response s .store (mainAddr a) = .device) (v : Word) :
    busStore s a v = storeDevice s .word (mainAddr a) v := if_pos h

theorem storeMem_bus {s : State} {a : Word} (h : StoresToBus s .word a) (v : Word) :
    storeMem s .word a v = .ok (busStore s a v) := by
  rcases h with h | h
  · rw [storeMem_memory h, busStore_memory h.2.2.2]
  · rw [storeMem_device h, busStore_device h.2.2.2]

theorem storesOnly_busStore (s : State) (a v : Word) : StoresOnly s (busStore s a v) := by
  unfold busStore
  split
  · exact ⟨_, _, _, rfl⟩
  · exact ⟨_, _, _, rfl⟩

theorem mem_stale_busStore (s : State) (a v : Word) (b : Nat) :
    b ∈ (busStore s a v).stale ↔ b ∈ s.stale ∨ InBytes (mainAddr a) 4 b := by
  have hstale : (busStore s a v).stale = insertAddrs s.stale (mainAddr a) 4 := by
    unfold busStore
    split <;> rfl
  rw [hstale]
  exact mem_insertAddrs ..

theorem devices_busStore (s : State) (a v : Word) :
    (busStore s a v).devices =
      if response s .store (mainAddr a) = .device then
        { deviceQuery .store .word a with data := v } :: s.devices
      else s.devices := by
  unfold busStore
  split <;> rfl

theorem wf_busStore {s : State} {a : Word} (h : StoresToBus s .word a) (hwf : Memory.wf s.mem) (v : Word) :
    Memory.wf (busStore s a v).mem := storeMem_wf (storeMem_bus h v) hwf

theorem sameMemBut_busStore {s : State} {a : Word} (h : StoresToBus s .word a) (v : Word) :
    SameMemBut (fun b => response s .store (mainAddr a) = .memory ∧ InBytes (mainAddr a) 4 b) s (busStore s a v) := by
  intro b hb
  rcases h with h | h
  · rw [busStore_memory h.2.2.2]
    exact sameMemBut_storeMain s .word (mainAddr a) v b fun hin => hb ⟨h.2.2.2, hin⟩
  · rw [busStore_device h.2.2.2, storeDevice_mem]

theorem holdsBytes_busStore {s : State} {a : Word} (h : response s .store (mainAddr a) = .memory) (hwf : Memory.wf s.mem)
    (v : Word) : HoldsBytes (busStore s a v) (mainAddr a) 4 v := by
  rw [busStore_memory h]
  exact holdsBytes_storeMain hwf .word (mainAddr a) v

/-- A store that is kept or not, as the free value says (R373). -/
theorem keepStore_bus {kept : State} {a : Word} (h : StoresToBus kept .word a) (tick k : Nat) (v : Word) :
    keepStore kept tick k a v = if Config.zcmpKept tick k then busStore kept a v else kept := by
  rw [keepStore, storeMem_bus h]

/-! ## The run of a push -/

/-- The state after the first `n` stores of a push. -/
def pushed (s : State) (l : List Reg) (top : Word) : Nat → State
  | 0 => s
  | n + 1 => busStore (pushed s l top n) (stackSlot top n) (s.x (l[n]?.getD 0))

/-- The state with those of the first `n` stores of a push that an exception keeps. -/
def keptStores (s : State) (l : List Reg) (top : Word) : Nat → State
  | 0 => s
  | n + 1 => keepStore (keptStores s l top n) s.tick n (stackSlot top n) (s.x (l[n]?.getD 0))

section
variable {s : State} {l : List Reg} {top : Word} {n : Nat}

theorem storesOnly_pushed : StoresOnly s (pushed s l top n) := by
  induction n with
  | zero => exact .refl s
  | succ n ih => exact ih.trans (storesOnly_busStore ..)

theorem storesOnly_keptStores (h : ∀ k < n, StoresToBus s .word (stackSlot top k)) : StoresOnly s (keptStores s l top n) := by
  induction n with
  | zero => exact .refl s
  | succ n ih =>
    have honly := ih fun k hk => h k (Nat.lt_succ_of_lt hk)
    rw [keptStores, keepStore_bus (honly.storesToBus (h n (Nat.lt_succ_self n)))]
    split
    · exact honly.trans (storesOnly_busStore ..)
    · exact honly

theorem keptStores_succ (h : ∀ k < n + 1, StoresToBus s .word (stackSlot top k)) :
    keptStores s l top (n + 1) =
      if Config.zcmpKept s.tick n then busStore (keptStores s l top n) (stackSlot top n) (s.x (l[n]?.getD 0))
      else keptStores s l top n :=
  keepStore_bus ((storesOnly_keptStores fun k hk => h k (Nat.lt_succ_of_lt hk)).storesToBus (h n (Nat.lt_succ_self n))) ..

/-- A run of stores that the bus takes reaches the n-th slot with the states above. -/
theorem pushRun_eq_drop (hn : n ≤ l.length) (h : ∀ k < n, StoresToBus s .word (stackSlot top k)) :
    pushRun s l (stackSlot top 0) 0 s s =
      pushRun s (l.drop n) (stackSlot top n) n (keptStores s l top n) (pushed s l top n) := by
  induction n with
  | zero => rfl
  | succ n ih =>
    have hget : l[n]?.getD 0 = l[n] := by rw [List.getElem?_eq_getElem hn, Option.getD_some]
    rw [ih (Nat.le_of_succ_le hn) fun k hk => h k (Nat.lt_succ_of_lt hk), List.drop_eq_getElem_cons hn, pushRun,
      storeMem_bus (storesOnly_pushed.storesToBus (h n (Nat.lt_succ_self n))), stackSlot_sub_four, keptStores, pushed, hget]

theorem pushRun_done (h : ∀ k < l.length, StoresToBus s .word (stackSlot top k)) :
    pushRun s l (stackSlot top 0) 0 s s = .done (pushed s l top l.length) := by
  rw [pushRun_eq_drop (Nat.le_refl _) h, List.drop_length, pushRun]

/-- How a run ends whose n-th store does not complete. -/
theorem pushRun_stops (hn : n < l.length) (h : ∀ k < n, StoresToBus s .word (stackSlot top k))
    {r : Res State} (hr : ∀ u v, StoresOnly s u → storeMem u .word (stackSlot top n) v = r) {code : Nat} {f : Fault} :
    (r = .exc code → pushRun s l (stackSlot top 0) 0 s s = .exc code (keptStores s l top n)) ∧
      (r = .fault f → pushRun s l (stackSlot top 0) 0 s s = .fault f) := by
  rw [pushRun_eq_drop (Nat.le_of_lt hn) h, List.drop_eq_getElem_cons hn, pushRun, hr _ _ storesOnly_pushed]
  exact ⟨fun e => by rw [e], fun e => by rw [e]⟩

/-! ## What the stores of a push change -/

theorem mem_stale_pushed (b : Nat) :
    b ∈ (pushed s l top n).stale ↔ b ∈ s.stale ∨ ∃ k < n, InBytes (mainAddr (stackSlot top k)) 4 b := by
  induction n with
  | zero => simp [pushed]
  | succ n ih => rw [pushed, mem_stale_busStore, ih, or_assoc, Nat.exists_lt_succ_right]

theorem devices_pushed : (pushed s l top n).devices = slotRecords s l top n := by
  induction n with
  | zero => rfl
  | succ n ih => rw [pushed, devices_busStore, storesOnly_pushed.response, ih, slotRecords]

theorem inSlots_succ {b : Nat} : InSlots s top (n + 1) b ↔ InSlots s top n b ∨
    (response s .store (mainAddr (stackSlot top n)) = .memory ∧ InBytes (mainAddr (stackSlot top n)) 4 b) :=
  Nat.exists_lt_succ_right

theorem sameMemBut_inSlots_succ {t : State} (h : SameMemBut (InSlots s top n) s t) : SameMemBut (InSlots s top (n + 1)) s t :=
  fun b hb => h b fun hin => hb (inSlots_succ.mpr (.inl hin))

theorem sameMemBut_inSlots_busStore {u : State} (hu : StoresOnly s u) (hn : StoresToBus s .word (stackSlot top n))
    (h : SameMemBut (InSlots s top n) s u) (v : Word) :
    SameMemBut (InSlots s top (n + 1)) s (busStore u (stackSlot top n) v) := by
  intro b hb
  rw [inSlots_succ, not_or, ← hu.response] at hb
  rw [sameMemBut_busStore (hu.storesToBus hn) v b hb.2, h b hb.1]

theorem sameMemBut_pushed (h : ∀ k < n, StoresToBus s .word (stackSlot top k)) :
    SameMemBut (InSlots s top n) s (pushed s l top n) := by
  induction n with
  | zero => exact fun _ _ => rfl
  | succ n ih =>
    exact sameMemBut_inSlots_busStore storesOnly_pushed (h n (Nat.lt_succ_self n))
      (ih fun k hk => h k (Nat.lt_succ_of_lt hk)) _

theorem wf_pushed (hwf : Memory.wf s.mem) (h : ∀ k < n, StoresToBus s .word (stackSlot top k)) :
    Memory.wf (pushed s l top n).mem := by
  induction n with
  | zero => exact hwf
  | succ n ih =>
    exact wf_busStore (storesOnly_pushed.storesToBus (h n (Nat.lt_succ_self n)))
      (ih fun k hk => h k (Nat.lt_succ_of_lt hk)) _

theorem sameMemBut_keptStores (h : ∀ k < n, StoresToBus s .word (stackSlot top k)) :
    SameMemBut (InSlots s top n) s (keptStores s l top n) := by
  induction n with
  | zero => exact fun _ _ => rfl
  | succ n ih =>
    have hbefore : ∀ k < n, StoresToBus s .word (stackSlot top k) := fun k hk => h k (Nat.lt_succ_of_lt hk)
    rw [keptStores_succ h]
    split
    · exact sameMemBut_inSlots_busStore (storesOnly_keptStores hbefore) (h n (Nat.lt_succ_self n)) (ih hbefore) _
    · exact sameMemBut_inSlots_succ (ih hbefore)

/-- The devices have seen some of the stores, each as it was made. -/
theorem devices_keptStores (h : ∀ k < n, StoresToBus s .word (stackSlot top k)) :
    (keptStores s l top n).devices.Sublist (slotRecords s l top n) ∧
      s.devices.Sublist (keptStores s l top n).devices := by
  induction n with
  | zero => exact ⟨.refl _, .refl _⟩
  | succ n ih =>
    have hbefore : ∀ k < n, StoresToBus s .word (stackSlot top k) := fun k hk => h k (Nat.lt_succ_of_lt hk)
    obtain ⟨hrecords, hold⟩ := ih hbefore
    rw [keptStores_succ h, slotRecords]
    split
    · rw [devices_busStore, (storesOnly_keptStores hbefore).response]
      split
      · exact ⟨hrecords.cons_cons _, hold.cons _⟩
      · exact ⟨hrecords, hold⟩
    · split
      · exact ⟨hrecords.cons _, hold⟩
      · exact ⟨hrecords, hold⟩

/-- Every slot in memory holds its register: a later store goes to another slot. -/
theorem holdsBytes_pushed (hwf : Memory.wf s.mem) (htop : misaligned .word top = false) (hn : n ≤ 3)
    (h : ∀ k < n, StoresToBus s .word (stackSlot top k)) {k : Nat} (hk : k < n)
    (hmem : response s .store (mainAddr (stackSlot top k)) = .memory) :
    HoldsBytes (pushed s l top n) (mainAddr (stackSlot top k)) 4 (s.x (l[k]?.getD 0)) := by
  induction n with
  | zero => cases hk
  | succ n ih =>
    have hbefore : ∀ k < n, StoresToBus s .word (stackSlot top k) := fun k hk => h k (Nat.lt_succ_of_lt hk)
    rcases Nat.lt_succ_iff_lt_or_eq.mp hk with hlt | rfl
    · intro j hj
      have hin : InBytes (mainAddr (stackSlot top k)) 4 (mainAddr (stackSlot top k) + j) := by
        simp only [InBytes]
        omega
      rw [← ih (Nat.le_of_succ_le hn) hbefore hlt j hj, pushed]
      exact sameMemBut_busStore (storesOnly_pushed.storesToBus (h n (Nat.lt_succ_self n))) _ _ fun hother =>
        slots_apart htop hlt hn hin hother.2
    · exact holdsBytes_busStore ((storesOnly_pushed.response ..).trans hmem) (wf_pushed hwf hbefore) _

end

/-! ## CM.PUSH (R363) -/

theorem length_listRegs_pos (l : RegList) : 0 < (listRegs l).length := by cases l <;> decide

theorem StoresToBus.guards {s : State} {w : Width} {a : Word} (h : StoresToBus s w a) :
    misaligned w a = false ∧ inTcip a = false := by
  obtain ⟨haligned, htcip, _⟩ | ⟨haligned, htcip, _⟩ := h
  · exact ⟨haligned, htcip⟩
  · exact ⟨haligned, htcip⟩

theorem aligned_of_storesToBus {s : State} {l : RegList} {top : Word}
    (h : ∀ k < (listRegs l).length, StoresToBus s .word (stackSlot top k)) : misaligned .word top = false := by
  rw [← misaligned_stackSlot top (show 0 < 3 by decide)]
  exact (h 0 (length_listRegs_pos l)).guards.1

theorem exec_cmPush_done {s : State} {l : RegList} (spimm : BitVec 2)
    (h : ∀ k < (listRegs l).length, StoresToBus s .word (stackSlot (s.x spReg) k)) :
    exec (.cmPush l spimm) s = .next (((pushed s (listRegs l) (s.x spReg) (listRegs l).length).setX spReg
      (s.x spReg - BitVec.ofNat 32 (16 + 16 * spimm.toNat))).retire 2) := by
  rw [exec_cmPush, stackGuard_pass (aligned_of_storesToBus h) fun k hk => (h k hk).guards.2, pushRun_done h, StackRun.elim]

/-- The frame of a push: its stores, a register and the retirement. -/
theorem frame_of_storesOnly {s u : State} (hu : StoresOnly s u) (r : Reg) (v target : Word) :
    SameRegsBut [r] s ((u.setX r v).retireTo target) ∧
      SameSystem { s with devices := u.devices } ((u.setX r v).retireTo target) ∧
      CountedOne s ((u.setX r v).retireTo target) := by
  obtain ⟨mem, stale, devices, rfl⟩ := hu
  refine ⟨fun q hq => ?_, by simp [SameSystem], countedOne_retireTo_of (by simp) (by simp) (by simp) target⟩
  rw [x_retireTo, x_setX_other _ v (List.ne_of_not_mem_cons hq)]
  rfl

/-- Settles O46: a run of stores that is done, by what its stores change. -/
theorem pushResults : Obligations.PushResults := by
  intro s l spimm hwf h
  generalize hu : pushed s (listRegs l) (s.x spReg) (listRegs l).length = u
  have honly : StoresOnly s u := hu ▸ storesOnly_pushed
  have hexec := exec_cmPush_done spimm h
  rw [hu, State.retire, setX_pc] at hexec
  have hpc : u.pc = s.pc := by
    obtain ⟨_, _, _, rfl⟩ := honly
    rfl
  have hdevices : u.devices = slotRecords s (listRegs l) (s.x spReg) (listRegs l).length := hu ▸ devices_pushed
  obtain ⟨hregs, hsystem, hcount⟩ := frame_of_storesOnly honly spReg
    (s.x spReg - BitVec.ofNat 32 (16 + 16 * spimm.toNat)) (u.pc + 2)
  refine ⟨_, hexec, fun k r hr hmem j hj => ?_, fun b hb => ?_, by simpa using hdevices, ?_, hregs, ?_, fun b => ?_, ?_,
    hcount⟩
  · have hk : k < (listRegs l).length := (List.getElem?_eq_some_iff.mp hr).1
    have hholds := holdsBytes_pushed (l := listRegs l) hwf (aligned_of_storesToBus h) (length_listRegs_le l) h hk hmem.2.2.2
    rw [hr, Option.getD_some, hu] at hholds
    simpa using hholds j hj
  · have hsame := sameMemBut_pushed (l := listRegs l) h b hb
    rw [hu] at hsame
    simpa using hsame
  · rw [x_retireTo, x_setX_same _ _ (by decide)]
  · rw [retireTo_pc, hpc]
  · rw [retireTo_stale, setX_stale, ← hu]
    exact mem_stale_pushed b
  · rw [retireTo_devices, setX_devices]
    exact hsystem

/-! ## A load from the bus -/

/-- `t` is `s` but for the general registers and the devices' history. -/
def LoadsOnly (s t : State) : Prop := ∃ regs devices, t = { s with regs := regs, devices := devices }

theorem LoadsOnly.refl (s : State) : LoadsOnly s s := ⟨s.regs, s.devices, rfl⟩

theorem LoadsOnly.asked {s t : State} (h : LoadsOnly s t) (l : List DeviceAccess) : LoadsOnly s { t with devices := l } := by
  obtain ⟨regs, _, rfl⟩ := h
  exact ⟨regs, l, rfl⟩

theorem LoadsOnly.setX {s t : State} (h : LoadsOnly s t) (r : Reg) (v : Word) : LoadsOnly s (t.setX r v) := by
  obtain ⟨_, devices, rfl⟩ := h
  obtain ⟨regs, e⟩ := setX_eq_withRegs { s with regs := _, devices := devices } r v
  exact ⟨regs, devices, e⟩

theorem LoadsFromBus.guards {s : State} {w : Width} {a : Word} (h : LoadsFromBus s w a) :
    misaligned w a = false ∧ inTcip a = false := by
  obtain ⟨haligned, htcip, _⟩ | ⟨haligned, htcip, _⟩ := h
  · exact ⟨haligned, htcip⟩
  · exact ⟨haligned, htcip⟩

/-- A load of a slot once the slots above it are loaded: the word there, or what the device answers. -/
theorem loadMem_slot {s u : State} {top : Word} {n : Nat} (hu : LoadsOnly s u) (hdevices : u.devices = slotQueries s top n)
    (h : LoadsFromBus s .word (stackSlot top n)) :
    loadMem u .word (stackSlot top n) = .ok (slotWord s top n, { u with devices := slotQueries s top (n + 1) }) := by
  obtain ⟨regs, devices, rfl⟩ := hu
  obtain rfl : devices = slotQueries s top n := hdevices
  rcases h with h | h
  · have hnot : response s .load (mainAddr (stackSlot top n)) ≠ .device := by
      rw [h.2.2.2]
      decide
    rw [loadMem_memory (s := { s with regs := regs, devices := slotQueries s top n }) h, read_eq_leValue, slotWord,
      if_neg hnot, slotQueries, if_neg hnot]
    rfl
  · have hqueries : slotQueries s top (n + 1) = deviceQuery .load .word (stackSlot top n) :: slotQueries s top n := by
      rw [slotQueries, if_pos h.2.2.2]
    have hanswer := eq_ofNat_toNat (deviceData (toDevice { s with regs := regs, devices := slotQueries s top n }
      .load .word (mainAddr (stackSlot top n)) 0) .word)
    rw [toNat_deviceData, devices_toDevice_load] at hanswer
    rw [loadMem_device (s := { s with regs := regs, devices := slotQueries s top n }) h, deviceRead, hanswer, slotWord,
      if_pos h.2.2.2, hqueries]
    rfl

/-! ## The run of a pop -/

/-- The state after the first `n` loads of a pop. -/
def loaded (s : State) (l : List Reg) (top : Word) : Nat → State
  | 0 => s
  | n + 1 => { loaded s l top n with devices := slotQueries s top (n + 1) }.setX (l[n]?.getD 0) (slotWord s top n)

/-- The state with those of the first `n` loads of a pop that an exception keeps; what was asked of a device stays asked. -/
def keptLoads (s : State) (l : List Reg) (top : Word) : Nat → State
  | 0 => s
  | n + 1 =>
    if Config.zcmpKept s.tick n then
      { keptLoads s l top n with devices := slotQueries s top (n + 1) }.setX (l[n]?.getD 0) (slotWord s top n)
    else { keptLoads s l top n with devices := slotQueries s top (n + 1) }

section
variable {s : State} {l : List Reg} {top : Word} {n : Nat}

theorem loadsOnly_loaded : LoadsOnly s (loaded s l top n) := by
  induction n with
  | zero => exact .refl s
  | succ n ih => exact (ih.asked _).setX _ _

theorem loadsOnly_keptLoads : LoadsOnly s (keptLoads s l top n) := by
  induction n with
  | zero => exact .refl s
  | succ n ih =>
    rw [keptLoads]
    split
    · exact (ih.asked _).setX _ _
    · exact ih.asked _

theorem devices_loaded : (loaded s l top n).devices = slotQueries s top n := by
  cases n with
  | zero => rfl
  | succ n => rw [loaded, setX_devices]

theorem devices_keptLoads : (keptLoads s l top n).devices = slotQueries s top n := by
  cases n with
  | zero => rfl
  | succ n =>
    rw [keptLoads]
    split
    · rw [setX_devices]
    · rfl

theorem tick_loaded : (loaded s l top n).tick = s.tick := by
  obtain ⟨_, _, e⟩ := loadsOnly_loaded (s := s) (l := l) (top := top) (n := n)
  rw [e]

/-- A run of loads that the bus answers reaches the n-th slot with the states above. -/
theorem popRun_eq_drop (hn : n ≤ l.length) (h : ∀ k < n, LoadsFromBus s .word (stackSlot top k)) :
    popRun l (stackSlot top 0) 0 s s =
      popRun (l.drop n) (stackSlot top n) n (keptLoads s l top n) (loaded s l top n) := by
  induction n with
  | zero => rfl
  | succ n ih =>
    have hget : l[n]?.getD 0 = l[n] := by rw [List.getElem?_eq_getElem hn, Option.getD_some]
    rw [ih (Nat.le_of_succ_le hn) fun k hk => h k (Nat.lt_succ_of_lt hk), List.drop_eq_getElem_cons hn, popRun,
      loadMem_slot loadsOnly_loaded devices_loaded (h n (Nat.lt_succ_self n)), stackSlot_sub_four, keptLoads, loaded, hget]
    simp only [keepLoad, tick_loaded]

theorem popRun_done (h : ∀ k < l.length, LoadsFromBus s .word (stackSlot top k)) :
    popRun l (stackSlot top 0) 0 s s = .done (loaded s l top l.length) := by
  rw [popRun_eq_drop (Nat.le_refl _) h, List.drop_length, popRun]

/-- How a run ends whose n-th load does not complete. -/
theorem popRun_stops (hn : n < l.length) (h : ∀ k < n, LoadsFromBus s .word (stackSlot top k)) {r : Res (Word × State)}
    (hr : ∀ u, LoadsOnly s u → loadMem u .word (stackSlot top n) = r) {code : Nat} {f : Fault} :
    (r = .exc code → popRun l (stackSlot top 0) 0 s s = .exc code (keptLoads s l top n)) ∧
      (r = .fault f → popRun l (stackSlot top 0) 0 s s = .fault f) := by
  rw [popRun_eq_drop (Nat.le_of_lt hn) h, List.drop_eq_getElem_cons hn, popRun, hr _ loadsOnly_loaded]
  exact ⟨fun e => by rw [e], fun e => by rw [e]⟩

/-! ## What the loads of a pop change -/

theorem getD_mem (hn : n < l.length) : l[n]?.getD 0 ∈ l := by
  rw [List.getElem?_eq_getElem hn, Option.getD_some]
  exact List.getElem_mem hn

theorem x_loaded_other (hn : n ≤ l.length) {q : Reg} (hq : q ∉ l) : (loaded s l top n).x q = s.x q := by
  induction n with
  | zero => rfl
  | succ n ih =>
    rw [loaded, x_setX_other _ _ (ne_of_mem_of_not_mem (getD_mem hn) hq).symm]
    exact ih (Nat.le_of_succ_le hn)

theorem x_keptLoads_other (hn : n ≤ l.length) {q : Reg} (hq : q ∉ l) : (keptLoads s l top n).x q = s.x q := by
  induction n with
  | zero => rfl
  | succ n ih =>
    rw [keptLoads]
    split
    · rw [x_setX_other _ _ (ne_of_mem_of_not_mem (getD_mem hn) hq).symm]
      exact ih (Nat.le_of_succ_le hn)
    · exact ih (Nat.le_of_succ_le hn)

/-- Each register of the list holds its slot: no register is in the list twice, and x0 is not in it. -/
theorem x_loaded_listed (hnodup : l.Nodup) (hzero : (0 : Reg) ∉ l) (hn : n ≤ l.length) {k : Nat} (hk : k < n) :
    (loaded s l top n).x (l[k]?.getD 0) = slotWord s top k := by
  induction n with
  | zero => cases hk
  | succ n ih =>
    rw [loaded]
    rcases Nat.lt_succ_iff_lt_or_eq.mp hk with hlt | rfl
    · have hne : l[k]?.getD 0 ≠ l[n]?.getD 0 := by
        rw [List.getElem?_eq_getElem (Nat.lt_trans hlt hn), List.getElem?_eq_getElem hn, Option.getD_some, Option.getD_some]
        exact fun e => Nat.ne_of_lt hlt ((hnodup.getElem_inj_iff).mp e)
      rw [x_setX_other _ _ hne]
      exact ih (Nat.le_of_succ_le hn) hlt
    · exact x_setX_same _ _ (ne_of_mem_of_not_mem (getD_mem hn) hzero)

end

/-! ## The pops (R364 to R366) -/

theorem nodup_listRegs (l : RegList) : (listRegs l).Nodup := by cases l <;> decide

theorem zero_notMem_listRegs (l : RegList) : (0 : Reg) ∉ listRegs l := by cases l <;> decide

theorem sp_notMem_listRegs (l : RegList) : spReg ∉ listRegs l := by cases l <;> decide

theorem a0_notMem_listRegs (l : RegList) : (10 : Reg) ∉ listRegs l := by cases l <;> decide

theorem listRegs_last (l : RegList) : (listRegs l)[(listRegs l).length - 1]? = some raReg := by cases l <;> rfl

/-- The state from which the three pops retire: the registers loaded and sp moved. -/
def poppedState (s : State) (l : RegList) (top : Word) : State :=
  (loaded s (listRegs l) top (listRegs l).length).setX spReg top

theorem popThen_done {s : State} {l : RegList} {spimm : BitVec 2} {top : Word}
    (htop : top = s.x spReg + BitVec.ofNat 32 (16 + 16 * spimm.toNat))
    (h : ∀ k < (listRegs l).length, LoadsFromBus s .word (stackSlot top k)) (k : State → Out) :
    popThen s l spimm k = k (poppedState s l top) := by
  have haligned : misaligned .word top = false := by
    rw [← misaligned_stackSlot top (show 0 < 3 by decide)]
    exact (h 0 (length_listRegs_pos l)).guards.1
  rw [popThen_eq htop, stackGuard_pass haligned fun k hk => (h k hk).guards.2, popRun_done h, StackRun.elim, poppedState]

theorem popped_poppedState (s : State) (l : RegList) (top : Word) : Popped s (poppedState s l top) l top := by
  refine ⟨fun k r hr => ?_, x_setX_same _ _ (by decide), by rw [poppedState, setX_devices, devices_loaded]⟩
  obtain ⟨hk, rfl⟩ := List.getElem?_eq_some_iff.mp hr
  have hx := x_loaded_listed (s := s) (top := top) (nodup_listRegs l) (zero_notMem_listRegs l) (Nat.le_refl _) hk
  rw [hr, Option.getD_some] at hx
  rw [poppedState, x_setX_other _ _ (ne_of_mem_of_not_mem (List.getElem_mem hk) (sp_notMem_listRegs l)), hx]

theorem Popped.congr {s t u : State} {l : RegList} {top : Word} (h : Popped s t l top)
    (hx : ∀ r ∈ spReg :: listRegs l, u.x r = t.x r) (hdevices : u.devices = t.devices) : Popped s u l top := by
  obtain ⟨hlist, hsp, hqueries⟩ := h
  refine ⟨fun k r hr => ?_, by rw [hx _ List.mem_cons_self, hsp], hdevices.trans hqueries⟩
  rw [hx r (List.mem_cons_of_mem _ (List.mem_of_getElem? hr)), hlist k r hr]

theorem loadsOnly_poppedState (s : State) (l : RegList) (top : Word) : LoadsOnly s (poppedState s l top) :=
  loadsOnly_loaded.setX spReg top

theorem x_poppedState_other (s : State) {l : RegList} (top : Word) {r : Reg} (hr : r ∉ spReg :: listRegs l) :
    (poppedState s l top).x r = s.x r := by
  rw [List.mem_cons, not_or] at hr
  rw [poppedState, x_setX_other _ _ hr.1, x_loaded_other (Nat.le_refl _) hr.2]

theorem x_ra_poppedState (s : State) (l : RegList) (top : Word) :
    (poppedState s l top).x raReg = slotWord s top ((listRegs l).length - 1) :=
  (popped_poppedState s l top).1 _ _ (listRegs_last l)

/-- The frame of a pop: a state that differs from `s` in general registers and in what devices were asked retires. -/
theorem registerFrame_of_loadsOnly {s u : State} {l : List Reg} (hu : LoadsOnly s u) (hx : ∀ r : Reg, r ∉ l → u.x r = s.x r)
    (target : Word) : RegisterFrame l { s with devices := (u.retireTo target).devices } (u.retireTo target) := by
  rw [retireTo_devices]
  obtain ⟨regs, devices, rfl⟩ := hu
  exact registerFrame_of_withRegs (s := { s with devices := devices }) ⟨regs, rfl⟩ hx target

/-- A pop that goes to `target` once its registers are loaded. -/
theorem pop_retires (s : State) (l : RegList) (top target : Word) :
    Popped s ((poppedState s l top).retireTo target) l top ∧
      RegisterFrame (spReg :: listRegs l) { s with devices := ((poppedState s l top).retireTo target).devices }
        ((poppedState s l top).retireTo target) :=
  ⟨(popped_poppedState s l top).congr (fun _ _ => x_retireTo ..) (retireTo_devices ..),
    registerFrame_of_loadsOnly (loadsOnly_poppedState s l top) (fun _ hr => x_poppedState_other s top hr) target⟩

theorem pc_poppedState (s : State) (l : RegList) (top : Word) : (poppedState s l top).pc = s.pc := by
  obtain ⟨_, _, e⟩ := loadsOnly_poppedState s l top
  rw [e]

theorem exec_cmPop (s : State) (l : RegList) (spimm : BitVec 2) :
    exec (.cmPop l spimm) s = popThen s l spimm fun t => .next (t.retireTo (t.pc + 2)) := rfl

theorem exec_cmPopret (s : State) (l : RegList) (spimm : BitVec 2) :
    exec (.cmPopret l spimm) s = popThen s l spimm fun t => .next (t.retireTo (clearBit0 (t.x raReg))) := rfl

theorem exec_cmPopretz (s : State) (l : RegList) (spimm : BitVec 2) :
    exec (.cmPopretz l spimm) s =
      popThen s l spimm fun t => .next ((t.setX 10 0).retireTo (clearBit0 (t.x raReg))) := rfl

/-- Settles O47: a run of loads that is done, and what each pop does after it. -/
theorem popResults : Obligations.PopResults := by
  intro s l spimm top htop h
  rw [exec_cmPop, exec_cmPopret, exec_cmPopretz, popThen_done htop h, popThen_done htop h, popThen_done htop h,
    x_ra_poppedState]
  refine ⟨?_, ?_, ?_⟩
  · obtain ⟨hpopped, hframe⟩ := pop_retires s l top ((poppedState s l top).pc + 2)
    exact ⟨_, rfl, hpopped, by rw [retireTo_pc, pc_poppedState], hframe⟩
  · obtain ⟨hpopped, hframe⟩ := pop_retires s l top (clearBit0 (slotWord s top ((listRegs l).length - 1)))
    exact ⟨_, rfl, hpopped, retireTo_pc .., hframe⟩
  · have ha0 : (10 : Reg) ∉ spReg :: listRegs l := by
      rw [List.mem_cons, not_or]
      exact ⟨by decide, a0_notMem_listRegs l⟩
    refine ⟨_, rfl, (popped_poppedState s l top).congr (fun r hr => ?_) (by simp), ?_, retireTo_pc ..,
      registerFrame_of_loadsOnly ((loadsOnly_poppedState s l top).setX 10 0) (fun r hr => ?_) _⟩
    · rw [x_retireTo, x_setX_other _ _ (ne_of_mem_of_not_mem hr ha0)]
    · rw [x_retireTo, x_setX_same _ _ (by decide)]
    · rw [List.mem_cons, not_or] at hr
      rw [x_setX_other _ _ hr.1, x_poppedState_other s top hr.2]

/-! ## A push and the pop after it -/

theorem slotRecords_memory {s : State} {l : List Reg} {top : Word} {n : Nat}
    (h : ∀ k < n, response s .store (mainAddr (stackSlot top k)) = .memory) : slotRecords s l top n = s.devices := by
  induction n with
  | zero => rfl
  | succ n ih =>
    rw [slotRecords, if_neg (by rw [h n (Nat.lt_succ_self n)]; decide), ih fun k hk => h k (Nat.lt_succ_of_lt hk)]

theorem slotQueries_memory {s : State} {top : Word} {n : Nat}
    (h : ∀ k < n, response s .load (mainAddr (stackSlot top k)) = .memory) : slotQueries s top n = s.devices := by
  induction n with
  | zero => rfl
  | succ n ih =>
    rw [slotQueries, if_neg (by rw [h n (Nat.lt_succ_self n)]; decide), ih fun k hk => h k (Nat.lt_succ_of_lt hk)]

/-- A slot in memory that holds a word gives that word to a pop. -/
theorem slotWord_of_holdsBytes {s : State} {top v : Word} {k : Nat}
    (hmem : response s .load (mainAddr (stackSlot top k)) = .memory)
    (h : HoldsBytes s (mainAddr (stackSlot top k)) 4 v) : slotWord s top k = v := by
  have hvalue : leValue s.mem (mainAddr (stackSlot top k)) 4 = v.toNat := by
    have hle := leValue_of_bytes (v := v) 4 0 fun j hj => h j (by omega)
    rw [Nat.add_zero] at hle
    rw [hle]
    have := v.isLt
    omega
  rw [slotWord, if_neg (by rw [hmem]; decide), hvalue, ← eq_ofNat_toNat]

theorem SameSystem.trans {s t u : State} (h : SameSystem s t) (h' : SameSystem t u) : SameSystem s u := by
  unfold SameSystem at *
  simp_all

theorem loadsFromMemory_congr {s t : State} (hcfg : t.cfg = s.cfg) (hpins : t.pins = s.pins) {w : Width} {a : Word}
    (h : LoadsFromMemory s w a) : LoadsFromMemory t w a := by
  simpa only [LoadsFromMemory, response, hcfg, hpins] using h

/-- Settles O48: the pop loads each register from the slot in which the push left it. -/
theorem pushThenPopRestores : Obligations.PushThenPopRestores := by
  intro s l spimm hwf h
  have hstores : ∀ k < (listRegs l).length, StoresToMemory s .word (stackSlot (s.x spReg) k) := fun k hk => (h k hk).1
  obtain ⟨t, hpush, hholds, -, hrecords, hsp, hregs, -, -, hsystem, -⟩ :=
    pushResults s l spimm hwf fun k hk => .inl (hstores k hk)
  rw [slotRecords_memory fun k hk => (hstores k hk).2.2.2] at hrecords
  have hloads : ∀ k < (listRegs l).length, LoadsFromMemory t .word (stackSlot (s.x spReg) k) := fun k hk => by
    obtain ⟨hcfg, -, -, -, -, -, -, hpins, -⟩ := hsystem
    exact loadsFromMemory_congr hcfg hpins (h k hk).2
  have htop : s.x spReg = t.x spReg + BitVec.ofNat 32 (16 + 16 * spimm.toNat) := by rw [hsp, BitVec.sub_add_cancel]
  obtain ⟨⟨u, hpop, ⟨hlist, husp, hqueries⟩, -, hframe, hmem, -, husystem, -⟩, -⟩ :=
    popResults t l spimm (s.x spReg) htop fun k hk => .inl (hloads k hk)
  rw [slotQueries_memory fun k hk => (hloads k hk).2.2.2] at hqueries
  rw [hrecords] at hsystem
  rw [hqueries] at husystem
  refine ⟨t, u, hpush, hpop, fun r _ => ?_, hmem, hsystem.trans husystem⟩
  by_cases hr : r ∈ spReg :: listRegs l
  · rcases List.mem_cons.mp hr with rfl | hr
    · exact husp
    · obtain ⟨k, hk, hget⟩ := List.mem_iff_getElem.mp hr
      have hget : (listRegs l)[k]? = some r := List.getElem?_eq_some_iff.mpr ⟨hk, hget⟩
      rw [hlist k r hget, slotWord_of_holdsBytes (hloads k hk).2.2.2 (hholds k r hget (hstores k hk))]
  · rw [hframe r hr]
    exact hregs r fun hsp => hr (List.mem_cons.mpr (.inl (List.mem_singleton.mp hsp)))

/-! ## Stack accesses that do not complete (R362, R373) -/

/-- A store outside the TCIP window that the bus does not take. -/
theorem storeMem_stops {s : State} {w : Width} {a v : Word} (haligned : misaligned w a = false) (htcip : inTcip a = false) :
    (inIbus s.cfg (mainAddr a) = true → storeMem s w a v = .fault .ibusData) ∧
      (inIbus s.cfg (mainAddr a) = false → response s .store (mainAddr a) = .error → storeMem s w a v = .exc 7) := by
  constructor
  · intro hibus
    simp [storeMem, haligned, htcip, hibus]
  · intro hibus hresponse
    simp [storeMem, haligned, htcip, hibus, hresponse]

/-- A load outside the TCIP window that the bus does not answer. -/
theorem loadMem_stops {s : State} {w : Width} {a : Word} (haligned : misaligned w a = false) (htcip : inTcip a = false) :
    (inIbus s.cfg (mainAddr a) = true → loadMem s w a = .fault .ibusData) ∧
      (inIbus s.cfg (mainAddr a) = false → response s .load (mainAddr a) = .error → loadMem s w a = .exc 5) := by
  constructor
  · intro hibus
    simp [loadMem, haligned, htcip, hibus]
  · intro hibus hresponse
    simp [loadMem, haligned, htcip, hibus, hresponse]

/-- The adjustment is a multiple of 4. -/
theorem misaligned_top {s : State} {top : Word} {spimm : BitVec 2}
    (htop : top = s.x spReg + BitVec.ofNat 32 (16 + 16 * spimm.toNat)) :
    misaligned .word top = misaligned .word (s.x spReg) := by
  have hspimm := spimm.isLt
  have hsum : top.toNat = ((s.x spReg).toNat + (16 + 16 * spimm.toNat)) % 2 ^ 32 := by
    rw [htop, BitVec.toNat_add, BitVec.toNat_ofNat, Nat.add_mod_mod]
  rw [Bool.eq_iff_iff, misaligned_iff, misaligned_iff, hsum]
  simp only [Width.bytes]
  omega

/-- The three pops load their registers alike. -/
theorem exec_pop {s : State} {l : RegList} {spimm : BitVec 2} {pop : Instr}
    (h : pop ∈ [Instr.cmPop l spimm, .cmPopret l spimm, .cmPopretz l spimm]) :
    ∃ k, exec pop s = popThen s l spimm k := by
  simp only [List.mem_cons, List.not_mem_nil, or_false] at h
  rcases h with rfl | rfl | rfl
  · exact ⟨_, exec_cmPop ..⟩
  · exact ⟨_, exec_cmPopret ..⟩
  · exact ⟨_, exec_cmPopretz ..⟩

/-- A push whose n-th store does not complete. -/
theorem push_stops {s : State} {l : RegList} (spimm : BitVec 2) {n : Nat} (haligned : misaligned .word (s.x spReg) = false)
    (hn : n < (listRegs l).length) (htcip : ∀ k < (listRegs l).length, inTcip (stackSlot (s.x spReg) k) = false)
    (h : ∀ k < n, StoresToBus s .word (stackSlot (s.x spReg) k)) :
    (inIbus s.cfg (mainAddr (stackSlot (s.x spReg) n)) = true → exec (.cmPush l spimm) s = .fault .ibusData) ∧
      (inIbus s.cfg (mainAddr (stackSlot (s.x spReg) n)) = false →
        response s .store (mainAddr (stackSlot (s.x spReg) n)) = .error →
        exec (.cmPush l spimm) s = .next (raise (keptStores s (listRegs l) (s.x spReg) n) 7)) := by
  have hslot : misaligned .word (stackSlot (s.x spReg) n) = false :=
    (misaligned_stackSlot _ (Nat.lt_of_lt_of_le hn (length_listRegs_le l))).trans haligned
  rw [exec_cmPush, stackGuard_pass haligned htcip]
  constructor
  · intro hibus
    rw [(pushRun_stops hn h (r := .fault .ibusData) (code := 0) fun u v hu => ?_).2 rfl, StackRun.elim]
    obtain ⟨_, _, _, rfl⟩ := hu
    exact (storeMem_stops hslot (htcip n hn)).1 hibus
  · intro hibus hresponse
    rw [(pushRun_stops hn h (r := .exc 7) (f := .ibusData) fun u v hu => ?_).1 rfl, StackRun.elim]
    obtain ⟨_, _, _, rfl⟩ := hu
    exact (storeMem_stops hslot (htcip n hn)).2 hibus hresponse

/-- A pop whose n-th load does not complete. -/
theorem pop_stops {s : State} {l : RegList} {spimm : BitVec 2} {top : Word} {n : Nat} {k : State → Out}
    (htop : top = s.x spReg + BitVec.ofNat 32 (16 + 16 * spimm.toNat)) (haligned : misaligned .word top = false)
    (hn : n < (listRegs l).length) (htcip : ∀ k < (listRegs l).length, inTcip (stackSlot top k) = false)
    (h : ∀ k < n, LoadsFromBus s .word (stackSlot top k)) :
    (inIbus s.cfg (mainAddr (stackSlot top n)) = true → popThen s l spimm k = .fault .ibusData) ∧
      (inIbus s.cfg (mainAddr (stackSlot top n)) = false → response s .load (mainAddr (stackSlot top n)) = .error →
        popThen s l spimm k = .next (raise (keptLoads s (listRegs l) top n) 5)) := by
  have hslot : misaligned .word (stackSlot top n) = false :=
    (misaligned_stackSlot _ (Nat.lt_of_lt_of_le hn (length_listRegs_le l))).trans haligned
  rw [popThen_eq htop, stackGuard_pass haligned htcip]
  constructor
  · intro hibus
    rw [(popRun_stops hn h (r := .fault .ibusData) (code := 0) fun u hu => ?_).2 rfl, StackRun.elim]
    obtain ⟨_, _, rfl⟩ := hu
    exact (loadMem_stops hslot (htcip n hn)).1 hibus
  · intro hibus hresponse
    rw [(popRun_stops hn h (r := .exc 5) (f := .ibusData) fun u hu => ?_).1 rfl, StackRun.elim]
    obtain ⟨_, _, rfl⟩ := hu
    exact (loadMem_stops hslot (htcip n hn)).2 hibus hresponse

/-- What a state that differs from `s` in memory, its marks and the devices' history keeps. -/
theorem StoresOnly.frame {s t : State} (h : StoresOnly s t) :
    SameRegsBut [] s t ∧ t.pc = s.pc ∧ SameSystem { s with devices := t.devices } t ∧ t.ctr = s.ctr := by
  obtain ⟨_, _, _, rfl⟩ := h
  exact ⟨sameRegsBut_of_regs rfl _, rfl, by simp [SameSystem], rfl⟩

/-- What a state that differs from `s` in general registers and the devices' history keeps. -/
theorem LoadsOnly.frame {s t : State} (h : LoadsOnly s t) :
    t.pc = s.pc ∧ SameMem s t ∧ SameSystem { s with devices := t.devices } t ∧ t.ctr = s.ctr := by
  obtain ⟨_, _, rfl⟩ := h
  exact ⟨rfl, sameMem_of_mem rfl, by simp [SameSystem], rfl⟩

/-- Settles O49: the guards first, then a run that stops at its n-th slot. -/
theorem stackFaultsKeepSp : Obligations.StackFaultsKeepSp := by
  intro s l spimm top pop htop hpop
  obtain ⟨k, hexec⟩ := exec_pop (s := s) hpop
  have haligned_top := misaligned_top htop
  refine ⟨fun hmis => ⟨?_, ?_⟩, fun haligned => ⟨fun htcip => ?_, fun htcip => ?_, fun n hn htcip h => ?_,
    fun n hn htcip h => ?_⟩⟩
  · rw [Traps, exec_cmPush, stackGuard_misaligned hmis]
  · rw [Traps, hexec, popThen_eq htop, stackGuard_misaligned (haligned_top.trans hmis)]
  · rw [exec_cmPush, stackGuard_tcip haligned htcip]
  · rw [hexec, popThen_eq htop, stackGuard_tcip (haligned_top.trans haligned) htcip]
  · obtain ⟨hfault, herror⟩ := push_stops spimm haligned hn htcip h
    obtain ⟨hregs, hpc, hsystem, hctr⟩ := (storesOnly_keptStores (l := listRegs l) h).frame
    obtain ⟨hrecords, hold⟩ := devices_keptStores (l := listRegs l) h
    exact ⟨hfault, fun hibus hresponse =>
      ⟨_, herror hibus hresponse, hregs, hpc, sameMemBut_keptStores h, hrecords, hold, hsystem, hctr⟩⟩
  · obtain ⟨hfault, herror⟩ := pop_stops (k := k) htop (haligned_top.trans haligned) hn htcip h
    obtain ⟨hpc, hmem, hsystem, hctr⟩ := (loadsOnly_keptLoads (s := s) (l := listRegs l) (top := top) (n := n)).frame
    rw [hexec]
    exact ⟨hfault, fun hibus hresponse => ⟨_, herror hibus hresponse,
      fun _ hr => x_keptLoads_other (Nat.le_of_lt hn) hr, hpc, hmem, devices_keptLoads, hsystem, hctr⟩⟩

end Sys2Proof.Machine
end
